-- ==== Sys2Proof/Word.lean ====
section
/-! DEFINITION. The bit widths of the block's values (spec/00_scope.md R6, spec/30_encoding.md R81, R82). -/

namespace Sys2Proof

/-- A byte, bit 0 the least significant (R6). -/
abbrev Byte := BitVec 8

/-- The 7-bit unsigned value `b[6:0]` of a data byte (R82). -/
abbrev Data7 := BitVec 7

/-- The MIDI channel `b[3:0]` of a Channel Voice status byte (R81). -/
abbrev Chan := BitVec 4

/-- A zone, 0-3: a channel the zone filter lets through (R151, R152). -/
abbrev Zone := BitVec 2

/-- A frame-buffer slot index, 0-511 (R50). -/
abbrev SlotIx := BitVec 9

end Sys2Proof
end

