-- ==== Sys2Proof/Syntax.lean ====
section
/-! DEFINITION. The instructions: one constructor per row of spec/opcode_table.json. The block's instructions are the bytes of
its MIDI input stream (spec/30_encoding.md, opening words); rows that share a byte are told apart by the parser's state. -/

namespace Sys2Proof

/-- One input byte, classified as the opcode table classifies it. -/
inductive Instr where
  /-- DATA_RUNNING_STATUS, 0x00-0x7F with no message in progress and a running status (R131). -/
  | dataRunningStatus (value : Data7)
  /-- DATA_NO_STATUS, 0x00-0x7F with no message in progress and no running status (R132). -/
  | dataNoStatus (value : Data7)
  /-- DATA_CONTINUE, 0x00-0x7F with a message in progress (R133). -/
  | dataContinue (value : Data7)
  /-- SYSEX_BYTE, a byte of SysEx content (R120). -/
  | sysexByte (b : Byte)
  /-- NOTE_OFF status byte 0x8n (R123, R154). -/
  | noteOff (chan : Chan)
  /-- NOTE_ON status byte 0x9n (R123, R155). -/
  | noteOn (chan : Chan)
  /-- POLY_PRESSURE status byte 0xAn (R123, R156). -/
  | polyPressure (chan : Chan)
  /-- CONTROL_CHANGE status byte 0xBn (R123, R157). -/
  | controlChange (chan : Chan)
  /-- PROGRAM_CHANGE status byte 0xCn (R123, R158). -/
  | programChange (chan : Chan)
  /-- CHANNEL_PRESSURE status byte 0xDn (R123, R160). -/
  | channelPressure (chan : Chan)
  /-- PITCH_BEND status byte 0xEn (R123, R161). -/
  | pitchBend (chan : Chan)
  /-- SYSEX_START, 0xF0 outside SysEx (R122). -/
  | sysexStart
  /-- SC_F1 (R124). -/
  | scF1
  /-- SC_F2 (R125). -/
  | scF2
  /-- SC_F3 (R126). -/
  | scF3
  /-- SC_F4, an undefined System Common code (R127). -/
  | scF4
  /-- SC_F5, an undefined System Common code (R128). -/
  | scF5
  /-- SC_F6 (R129). -/
  | scF6
  /-- EOX, 0xF7 inside SysEx (R121). -/
  | eox
  /-- EOX_STRAY, 0xF7 outside SysEx (R130). -/
  | eoxStray
  /-- RT_F8 (R113). -/
  | rtF8
  /-- RT_F9 (R114). -/
  | rtF9
  /-- RT_FA (R115). -/
  | rtFA
  /-- RT_FB (R116). -/
  | rtFB
  /-- RT_FC (R117). -/
  | rtFC
  /-- RT_FD (R118). -/
  | rtFD
  /-- RT_FE (R119). -/
  | rtFE
  /-- SYSTEM_RESET, 0xFF (R111). -/
  | systemReset
  deriving DecidableEq, Repr

end Sys2Proof
end

