-- ==== Sys2Proof/WellFormed.lean ====
section
/-! DEFINITION. Which instruction terms the encoding admits: every operand is in range by its type, but for the byte of
SYSEX_BYTE, which the opcode table limits to `b < 0xF8` and `b ≠ 0xF7` (spec/40_parser.md R120). -/

namespace Sys2Proof

/-- SysEx content stops short of the bytes that act inside SysEx: below 0xF8, where the Real-Time bytes and the System Reset
begin, and not the closing 0xF7 (R120). -/
def sysexContent (b : Byte) : Bool := decide (b.toNat < 0xF8) && b != 0xF7#8

/-- The instruction is one the encoding admits. -/
def Instr.wellFormed : Instr → Bool
  | .sysexByte b => sysexContent b
  | .dataRunningStatus _ | .dataNoStatus _ | .dataContinue _ => true
  | .noteOff _ | .noteOn _ | .polyPressure _ | .controlChange _ | .programChange _ | .channelPressure _ | .pitchBend _ => true
  | .sysexStart | .scF1 | .scF2 | .scF3 | .scF4 | .scF5 | .scF6 | .eox | .eoxStray => true
  | .rtF8 | .rtF9 | .rtFA | .rtFB | .rtFC | .rtFD | .rtFE | .systemReset => true

end Sys2Proof
end

