-- ==== Sys2Proof/Decode.lean ====
section
/-! DEFINITION. The decoder of spec/30_encoding.md, in the order of the tests of spec/40_parser.md R110, and the encoder.
An instruction is one byte; the rows that share a byte are told apart by the parser's state. -/

namespace Sys2Proof

/-- What the parser's state contributes to the classification of a byte (opcode_table.json, `applies_when`). -/
structure DecodeCtx where
  /-- The SysEx-active flag (R25). -/
  sysex : Bool
  /-- The count of buffered bytes (R24). -/
  cnt : BitVec 2
  /-- The running-status byte (R22). -/
  rs : Byte
  deriving DecidableEq, Repr

/-- The parser's state at power-on (R250). -/
def DecodeCtx.powerOn : DecodeCtx := ⟨false, 0#2, 0x00#8⟩

/-- Why an input could not be decoded. No byte is refused (R91): only an empty input is. -/
inductive DecodeError where
  /-- There is no byte to decode. Safe: nothing runs. -/
  | noByte
  deriving DecidableEq, Repr

/-- `type = b[7:4]` of a status byte (R81). -/
def statusType (b : Byte) : BitVec 4 := b.extractLsb' 4 4

/-- `chan = b[3:0]` of a Channel Voice status byte (R81). -/
def statusChan (b : Byte) : Chan := b.extractLsb' 0 4

/-- The 7-bit value `b[6:0]` of a data byte (R82). -/
def dataValue (b : Byte) : Data7 := b.extractLsb' 0 7

/-- A data byte, `b[7] = 0` (R80). -/
def isData (b : Byte) : Bool := !b.msb

/-- A Channel Voice status byte, 0x80-0xEF (R80). -/
def isChannelVoice (b : Byte) : Bool := decide (0x80 ≤ b.toNat) && decide (b.toNat ≤ 0xEF)

/-- A System Common byte, 0xF0-0xF7 (R80). -/
def isSystemCommon (b : Byte) : Bool := decide (0xF0 ≤ b.toNat) && decide (b.toNat ≤ 0xF7)

/-- A System Real-Time byte, 0xF8-0xFE (R80). -/
def isRealTime (b : Byte) : Bool := decide (0xF8 ≤ b.toNat) && decide (b.toNat ≤ 0xFE)

/-- The System Reset byte, 0xFF (R80, R88). -/
def isSystemReset (b : Byte) : Bool := b == 0xFF#8

/-- The Real-Time row of a byte 0xF8-0xFE (R87); the byte 0xFF is taken before (R110). -/
def decodeRealTime (b : Byte) : Instr :=
  match b with
  | 0xF8#8 => .rtF8
  | 0xF9#8 => .rtF9
  | 0xFA#8 => .rtFA
  | 0xFB#8 => .rtFB
  | 0xFC#8 => .rtFC
  | 0xFD#8 => .rtFD
  | 0xFE#8 => .rtFE
  | _ => .systemReset

/-- The row of a System Common byte 0xF0-0xF7 outside SysEx (R86). -/
def decodeSystemCommon (b : Byte) : Instr :=
  match b with
  | 0xF0#8 => .sysexStart
  | 0xF1#8 => .scF1
  | 0xF2#8 => .scF2
  | 0xF3#8 => .scF3
  | 0xF4#8 => .scF4
  | 0xF5#8 => .scF5
  | 0xF6#8 => .scF6
  | _ => .eoxStray

/-- The row of a status byte 0x80-0xF7 outside SysEx, by its type nibble (R85, R92). -/
def decodeStatus (b : Byte) : Instr :=
  match statusType b with
  | 0x8#4 => .noteOff (statusChan b)
  | 0x9#4 => .noteOn (statusChan b)
  | 0xA#4 => .polyPressure (statusChan b)
  | 0xB#4 => .controlChange (statusChan b)
  | 0xC#4 => .programChange (statusChan b)
  | 0xD#4 => .channelPressure (statusChan b)
  | 0xE#4 => .pitchBend (statusChan b)
  | _ => decodeSystemCommon b

/-- The row of a data byte outside SysEx (R131, R132, R133). -/
def decodeData (ctx : DecodeCtx) (b : Byte) : Instr :=
  if ctx.cnt = 0#2 then
    if ctx.rs = 0x00#8 then .dataNoStatus (dataValue b) else .dataRunningStatus (dataValue b)
  else .dataContinue (dataValue b)

/-- The instruction a byte is, in the order of the tests of R110: 0xFF and the Real-Time bytes in any state, then SysEx, then
status bytes, then data bytes. Every byte is some instruction (R91). -/
def decodeByte (ctx : DecodeCtx) (b : Byte) : Instr :=
  if 0xF8 ≤ b.toNat then decodeRealTime b
  else if ctx.sysex then
    if b = 0xF7#8 then .eox else .sysexByte b
  else if 0x80 ≤ b.toNat then decodeStatus b
  else decodeData ctx b

/-- Decode the first byte of an input and give back the rest. -/
def decode (ctx : DecodeCtx) : List Byte → Except DecodeError (Instr × List Byte)
  | [] => .error .noByte
  | b :: rest => .ok (decodeByte ctx b, rest)

/-- The byte of an instruction, from the encodings of R82 and R85 to R88. -/
def encode : Instr → Byte
  | .dataRunningStatus v => 0b0#1 ++ v
  | .dataNoStatus v => 0b0#1 ++ v
  | .dataContinue v => 0b0#1 ++ v
  | .sysexByte b => b
  | .noteOff c => 0x8#4 ++ c
  | .noteOn c => 0x9#4 ++ c
  | .polyPressure c => 0xA#4 ++ c
  | .controlChange c => 0xB#4 ++ c
  | .programChange c => 0xC#4 ++ c
  | .channelPressure c => 0xD#4 ++ c
  | .pitchBend c => 0xE#4 ++ c
  | .sysexStart => 0xF0#8
  | .scF1 => 0xF1#8
  | .scF2 => 0xF2#8
  | .scF3 => 0xF3#8
  | .scF4 => 0xF4#8
  | .scF5 => 0xF5#8
  | .scF6 => 0xF6#8
  | .eox => 0xF7#8
  | .eoxStray => 0xF7#8
  | .rtF8 => 0xF8#8
  | .rtF9 => 0xF9#8
  | .rtFA => 0xFA#8
  | .rtFB => 0xFB#8
  | .rtFC => 0xFC#8
  | .rtFD => 0xFD#8
  | .rtFE => 0xFE#8
  | .systemReset => 0xFF#8

/-- The state in which a row of the table applies (opcode_table.json, `applies_when`). -/
def Instr.appliesIn (ctx : DecodeCtx) : Instr → Bool
  | .dataRunningStatus _ => !ctx.sysex && ctx.cnt == 0#2 && ctx.rs != 0x00#8
  | .dataNoStatus _ => !ctx.sysex && ctx.cnt == 0#2 && ctx.rs == 0x00#8
  | .dataContinue _ => !ctx.sysex && ctx.cnt != 0#2
  | .sysexByte _ | .eox => ctx.sysex
  | .noteOff _ | .noteOn _ | .polyPressure _ | .controlChange _ | .programChange _ | .channelPressure _ | .pitchBend _ => !ctx.sysex
  | .sysexStart | .scF1 | .scF2 | .scF3 | .scF4 | .scF5 | .scF6 | .eoxStray => !ctx.sysex
  | .rtF8 | .rtF9 | .rtFA | .rtFB | .rtFC | .rtFD | .rtFE | .systemReset => true

/-- The bytes of a table word of `nbits` bits, the first byte its low one; at least one byte, since every row is one. -/
def tableBytes (nbits w : Nat) : List Byte :=
  (List.range (max 1 (nbits / 8))).map fun i => BitVec.ofNat 8 (w / 256 ^ i)

/-- The instruction read from a table word in the power-on state of the parser (log entry 9). -/
def decodeTableWord (nbits w : Nat) : Option Instr :=
  match decode DecodeCtx.powerOn (tableBytes nbits w) with
  | .ok (i, _) => some i
  | .error _ => none

end Sys2Proof
end

