-- ==== Sys2Proof/Config.lean ====
section
/-! DEFINITION. The implementation parameters of spec/00_scope.md R5, the names of the agents' moves (R8), and the free values:
opaque constants that no proof can evaluate. -/

namespace Sys2Proof

/-- The parameters of R5 that are not fixed by the source. The phase lengths are in bit cells. The model takes them as an
argument (R5), held in the state and changed by no step (log entry 1). -/
structure Config where
  /-- `BREAK_BITS`, the cells of a BREAK. -/
  breakBits : Nat
  /-- `MAB_BITS`, the cells of a Mark-After-Break. -/
  mabBits : Nat
  /-- `MTBS_BITS`, the cells of the inter-slot mark; OPEN, any integer ≥ 0. -/
  mtbsBits : Nat
  /-- `MBB_BITS`, the cells of the Mark-Before-Packet; OPEN, any integer ≥ 0. -/
  mbbBits : Nat
  /-- `ACC_TEAR`: whether the read of the count can tear (R68); OPEN. -/
  accTear : Bool
  deriving DecidableEq, Repr

namespace Config

/-- The values R5 gives: 44, 3, 0, 0 and false. -/
def defaults : Config := ⟨44, 3, 0, 0, false⟩

/-- `BREAK_MIN_BITS` of R5. -/
def breakMinBits : Nat := 23

/-- `MAB_MIN_BITS` of R5. -/
def mabMinBits : Nat := 2

/-- The configurations R5 gives a meaning: BREAK and MAB not below their minima. -/
def legal (c : Config) : Bool := decide (breakMinBits ≤ c.breakBits) && decide (mabMinBits ≤ c.mabBits)

/-- `START_CODE` of R5 and R98. -/
def startCode : Byte := 0x00#8

/-- `FRAME_BITS` of R5: 1 start, 8 data and 2 stop cells. -/
def frameBits : Nat := 11

/-- `BIT_US` of R5: the nominal length of one bit cell in microseconds (R97). -/
def bitUs : Nat := 4

/-- `FB_SLOTS` of R5. -/
def fbSlots : Nat := 512

/-- `SLOTS_PER_ZONE` of R5. -/
def slotsPerZone : Nat := 128

end Config

/-- Which agent moves next (R8). -/
inductive Move where
  /-- Upstream delivers the byte `b` (R21). -/
  | deliver (b : Byte)
  /-- The Parser takes its step, if it is enabled (R110). -/
  | parser
  /-- The Transmitter takes its step (R193). -/
  | transmitter
  deriving DecidableEq, Repr, Inhabited

/-- FREE VALUE: the agent that the scheduler picks where the state lays down no move, and the byte Upstream delivers. R8 lets any
agent with an enabled step be scheduled at any point (log entry 2). -/
opaque Config.freeMove : Nat → Move

/-- FREE VALUE: which member of `Hacc` gives the high byte of a torn count (the `draw` of R68, log entry 6). -/
opaque Config.freeHigh : Nat → Nat

/-- FREE VALUE: which member of `Hacc` gives the low byte of a torn count (the `draw` of R68, log entry 6). -/
opaque Config.freeLow : Nat → Nat

end Sys2Proof
end

