-- ==== Sys2Proof/Machine/State.lean ====
section
/-! DEFINITION. The state of the block (spec/10_state.md R20, spec/20_memory.md R68), the reasons a step can stop, and the state
at power-on (spec/70_reset_and_hazards.md R250). -/

namespace Sys2Proof.Machine

/-- The model faults of R221. -/
inductive Fault where
  /-- Raised by the Transmitter at a slot read at index `i ≥ 512` (R69); only with `ACC_TEAR = true`. Safe: the spec gives such
  a read no meaning, and the run stops. -/
  | slotIndexOutOfRange (i : Nat)
  /-- Raised by every step of a configuration below the minima of R5, before anything moves. Safe: the model gives such a
  configuration no meaning. -/
  | configRefused
  deriving DecidableEq, Repr

/-- The refusals. No instruction of this model is refused. -/
inductive Refusal where
  /-- Raised by an arm of `exec` whose instruction has no meaning yet; no arm is such an arm. Safe: nothing runs. -/
  | notModelled (mnemonic : String)
  deriving DecidableEq, Repr

/-- The transmitter's phase `ph` (R32). -/
inductive Phase where
  /-- Start of a cycle, where the count is read. -/
  | cstart
  /-- The BREAK. -/
  | brk
  /-- The Mark-After-Break. -/
  | mab
  /-- A framed byte in progress. -/
  | frm
  /-- An inter-slot mark. -/
  | mtbs
  /-- The Mark-Before-Packet. -/
  | mbb
  deriving DecidableEq, Repr

/-- The frame buffer's contents: (slot, byte) pairs, slots strictly rising, no entry equal to the power-on value 0x00 that an
unlisted slot reads as (R31, R250). -/
abbrev Memory := List Host.Cell

/-- The complete state: the tuple of R20, the model-only set `Hacc` of R68, and five fields of the model's own (`kOver`,
`resetEvents`, `cfg`, `agenda`, `tick`). -/
structure State where
  /-- `rx_hold`, the byte held by the receive register (R21). -/
  rxHold : Byte
  /-- `rx_full` (R21). -/
  rxFull : Bool
  /-- `rs`, the running-status byte (R22). -/
  rs : Byte
  /-- `buf[0..2]`, the accumulation buffer (R23). -/
  buf : Vector Byte 3
  /-- `cnt`, the bytes of the current message held in `buf` (R24). -/
  cnt : BitVec 2
  /-- `sysex`, the SysEx-active flag (R25). -/
  sysex : Bool
  /-- `mode[0..3]`, the Zone Mode Table (R28). -/
  mode : Vector Byte 4
  /-- `acc_code`, the Active Channel Count divided by 128 (R29). -/
  accCode : BitVec 3
  /-- `Hacc`, the values `128 · acc_code` has held since the previous Transmitter step, without repeats (R68). -/
  hacc : List (BitVec 16)
  /-- `FB[0..511]`, the frame buffer (R31). -/
  fb : Memory
  /-- `ph`, the transmitter's phase (R32). -/
  ph : Phase
  /-- `k`, the cell counter (R33). -/
  k : BitVec 16
  /-- The model's own: how often `k` has run past its 16 bits in the current phase; 0 whenever the phase has at most 65535 cells
  (R5, R33, log entry 7). -/
  kOver : Nat
  /-- `s`, the symbol index of the current cycle (R34). -/
  sym : BitVec 10
  /-- `N`, the count latched at the start of the current cycle (R35). -/
  latched : BitVec 10
  /-- `sh`, the byte of the framed byte in progress (R36). -/
  sh : Byte
  /-- `line`, the DMX line level, true for mark (R37). -/
  line : Bool
  /-- `ind_group[0..3]`, the group indicator outputs (R38). -/
  indGroup : Vector Bool 4
  /-- The model's own: how many `ResetEvent`s have been signalled (R38, log entry 8). -/
  resetEvents : Nat
  /-- The model's own: the parameters of R5, which no step changes (log entry 1). -/
  cfg : Config
  /-- The model's own: the moves laid down for the agents, the next one first (R8, log entry 2). -/
  agenda : List Move
  /-- The model's own: the index of the next free value (log entry 5). -/
  tick : Nat
  deriving DecidableEq, Repr

/-- Power-on with the configuration `c`: every piece of state at the value of R250. -/
def State.powerOn (c : Config) : State where
  rxHold := 0x00#8
  rxFull := false
  rs := 0x00#8
  buf := #v[0x00#8, 0x00#8, 0x00#8]
  cnt := 0#2
  sysex := false
  mode := #v[0x00#8, 0x00#8, 0x00#8, 0x00#8]
  accCode := 0#3
  hacc := [0#16]
  fb := []
  ph := .cstart
  k := 0#16
  kOver := 0
  sym := 0#10
  latched := 0#10
  sh := 0x00#8
  line := true
  indGroup := #v[false, false, false, false]
  resetEvents := 0
  cfg := c
  agenda := []
  tick := 0

/-- The machine right after power-on reset, at the default parameters of R5 (R250, log entry 1). -/
def State.reset : State := State.powerOn Config.defaults

end Sys2Proof.Machine
end

