-- ==== Sys2Proof/Machine/Operands.lean ====
section
/-! DEFINITION. The operand forms: the length of a message, its fields, the slot index and the slot value
(spec/30_encoding.md R83, R84; spec/41_mapper.md R152, R153). -/

namespace Sys2Proof.Machine

/-- The table `SC[0..7]` of R84, by `code = s - 0xF0`; System Real-Time codes have no length. -/
def systemCommonLen (code : BitVec 4) : Option Nat :=
  match code with
  | 0x0#4 => some 0
  | 0x1#4 => some 2
  | 0x2#4 => some 3
  | 0x3#4 => some 2
  | 0x4#4 => some 1
  | 0x5#4 => some 1
  | 0x6#4 => some 1
  | 0x7#4 => some 0
  | _ => none

/-- `Len(s)`, the length of a message with status byte `s`, the status byte counted (R84). It is defined for 0x80-0xF7 only. -/
def msgLen (s : Byte) : Option Nat :=
  match statusType s with
  | 0x8#4 => some 3
  | 0x9#4 => some 3
  | 0xA#4 => some 3
  | 0xB#4 => some 3
  | 0xC#4 => some 2
  | 0xD#4 => some 2
  | 0xE#4 => some 3
  | 0xF#4 => systemCommonLen (statusChan s)
  | _ => none

/-- The byte a data value is buffered as: bit 7 clear (R80, R82). -/
def dataByte (v : Data7) : Byte := 0b0#1 ++ v

/-- A completed message `(status, d1, d2)`, with the data values its length gives it (R110, R150). -/
structure Msg where
  /-- The status byte, received or running. -/
  status : Byte
  /-- Data value 1, present when the length is at least 2. -/
  d1 : Option Data7
  /-- Data value 2, present when the length is 3. -/
  d2 : Option Data7
  deriving DecidableEq, Repr

/-- `Msg(buf[0], n)` of R110: the fields of the first `n` bytes of the buffer (R83). -/
def bufferedMsg (buf : Vector Byte 3) (n : Nat) : Msg where
  status := buf[0]
  d1 := if 2 ≤ n then some (dataValue buf[1]) else none
  d2 := if n = 3 then some (dataValue buf[2]) else none

/-- The zone filter (R151): channels 0-3 are the zones, every other channel is ignored. -/
def zoneOf (chan : Chan) : Option Zone := if 4 ≤ chan.toNat then none else some (chan.extractLsb' 0 2)

/-- `Slot(z, n) = 128 · z + n = z ++ n` (R152). -/
def slotIndex (z : Zone) (note : Data7) : SlotIx := z ++ note

/-- `Val(v, on) = 2 · v + on = v ++ on` (R153). -/
def slotValue (v : Data7) (on : Bool) : Byte := v ++ BitVec.ofBool on

/-- The 16-bit value `V = 128 · acc_code` (R68). -/
def accWord (code : BitVec 3) : BitVec 16 := code.setWidth 16 <<< 7

/-- The Active Channel Count `128 · acc_code`, as the 10-bit value latched into `N` (R29, R35). -/
def accCount (code : BitVec 3) : BitVec 10 := code.setWidth 10 <<< 7

/-- The count whose high byte comes from `hi` and whose low byte from `lo` (R68). -/
def tornCount (hi lo : BitVec 16) : BitVec 10 := (hi.extractLsb' 8 8 ++ lo.extractLsb' 0 8).setWidth 10

end Sys2Proof.Machine
end

