-- ==== Sys2Proof/Machine/Flags.lean ====
section
/-! DEFINITION. What the block computes as yes or no: the predicates on zone modes and the priority scan they feed
(spec/41_mapper.md R154, R156, R159, R163), the group indicators (spec/42_transmitter.md R184) and the parser's state as derived
from its registers (spec/10_state.md R26). The only stored flag is `sysex` (R25); there are no condition codes. -/

namespace Sys2Proof.Machine

/-- A mode that counts as active in the priority scan: any nonzero value (R159, R163). -/
def modeActive (m : Byte) : Bool := m != 0x00#8

/-- The mode in which NOTE_OFF writes (R154, R163). -/
def modeTakesNoteOff (m : Byte) : Bool := m == 0x01#8

/-- The modes in which POLY_PRESSURE writes (R156, R163). -/
def modeTakesPressure (m : Byte) : Bool := m == 0x02#8 || m == 0x03#8

/-- `Prio`: the code of the highest zone with a nonzero mode (R159). -/
def prio (mode : Vector Byte 4) : BitVec 3 :=
  if modeActive mode[3] then 4#3
  else if modeActive mode[2] then 3#3
  else if modeActive mode[1] then 2#3
  else if modeActive mode[0] then 1#3
  else 0#3

/-- `ind_group[g] = (N > 128 · g)` for the four groups (R184). -/
def groupsOn (n : BitVec 10) : Vector Bool 4 :=
  #v[decide (0 < n.toNat), decide (128 < n.toNat), decide (256 < n.toNat), decide (384 < n.toNat)]

/-- The three parser states the source names (R26). -/
inductive ParserState where
  /-- Outside SysEx with an empty buffer. -/
  | idle
  /-- Outside SysEx with a message in progress. -/
  | accumulating
  /-- Inside SysEx. -/
  | sysexSkip
  deriving DecidableEq, Repr

/-- The parser state, derived from `sysex` and `cnt` (R26). -/
def parserState (s : State) : ParserState :=
  if s.sysex then .sysexSkip else if s.cnt = 0#2 then .idle else .accumulating

end Sys2Proof.Machine
end

