-- ==== Sys2Proof/Machine/Ops.lean ====
section
/-! DEFINITION. The named operations over the frame buffer and the registers. The block has no exception, trap entry or return
(spec/60_exceptions.md R220, R226), so there is no operation that takes one. -/

namespace Sys2Proof.Machine

/-- The byte of slot `a`; an unlisted slot holds the power-on value 0x00 (R31, R250). -/
def Memory.read : Memory → Nat → Byte
  | [], _ => 0x00#8
  | c :: m, a => if c.1 = a then c.2 else Memory.read m a

/-- Put one entry into a list in which its slot is not listed, before the first greater slot. -/
def Memory.insert : Memory → Nat → Byte → Memory
  | [], a, v => [(a, v)]
  | c :: m, a, v => if a < c.1 then (a, v) :: c :: m else c :: Memory.insert m a v

/-- Set slot `a` to `v`, keeping the canonical form: writing 0x00 removes the entry (R52). -/
def Memory.write (m : Memory) (a : Nat) (v : Byte) : Memory :=
  let rest := m.filter fun c => decide (c.1 ≠ a)
  if v = 0x00#8 then rest else Memory.insert rest a v

/-- Every slot at 0x00 (R58, R111). -/
def Memory.clear : Memory := []

/-- The canonical form: slots strictly rising, all below 512, no entry at the value an unlisted slot reads as (R50). -/
abbrev Memory.wf (m : Memory) : Prop :=
  m.Pairwise (fun c d => c.1 < d.1) ∧ ∀ c ∈ m, c.1 < Config.fbSlots ∧ c.2 ≠ 0x00#8

/-- `MemWrite(i, 1, v)`, the write port of the frame buffer (R52). -/
def memWrite (i : SlotIx) (v : Byte) (s : State) : State := { s with fb := s.fb.write i.toNat v }

/-- `MemRead(i, 1)`, the read port of the frame buffer (R53); an index of 512 or more raises the fault of R69. -/
def memRead (i : Nat) (s : State) : Except Fault Byte :=
  if i < Config.fbSlots then .ok (s.fb.read i) else .error (.slotIndexOutOfRange i)

/-- `mode[z]` (R28). -/
def zoneMode (z : Zone) (s : State) : Byte := s.mode[z.toNat]'z.isLt

/-- `mode[z] <- m` (R28). -/
def setZoneMode (z : Zone) (m : Byte) (s : State) : State := { s with mode := s.mode.set z.toNat m z.isLt }

/-- A set of values as a list without repeats: add `v`. -/
def addValue (v : BitVec 16) (vs : List (BitVec 16)) : List (BitVec 16) := if v ∈ vs then vs else v :: vs

/-- `acc_code <- c`; the new value joins `Hacc` (R29, R68). -/
def setAccCode (c : BitVec 3) (s : State) : State := { s with accCode := c, hacc := addValue (accWord c) s.hacc }

/-- `Hacc <- {V}`, after each Transmitter step (R68). -/
def resetHacc (s : State) : State := { s with hacc := [accWord s.accCode] }

/-- The member of a set that a free index picks; `d` if the set is empty, which `Hacc` never is (log entry 11). -/
def pick (vs : List (BitVec 16)) (i : Nat) (d : BitVec 16) : BitVec 16 := (vs[i % vs.length]?).getD d

/-- The read of the count at `CSTART`: the count itself (R67), or the draw of R68 when `ACC_TEAR = true` (log entry 6). -/
def readCount (s : State) : BitVec 10 :=
  if s.cfg.accTear then
    tornCount (pick s.hacc (Config.freeHigh s.tick) (accWord s.accCode)) (pick s.hacc (Config.freeLow s.tick) (accWord s.accCode))
  else accCount s.accCode

/-- `buf[i] <- b`; there is no `buf[3]` to write (R23, log entry 11). -/
def setBuf (i : Nat) (b : Byte) (s : State) : State := { s with buf := s.buf.setIfInBounds i b }

/-- `cnt <- n` (R24). -/
def setCnt (n : BitVec 2) (s : State) : State := { s with cnt := n }

/-- `rs <- b` (R22). -/
def setRs (b : Byte) (s : State) : State := { s with rs := b }

/-- `sysex <- f` (R25). -/
def setSysex (f : Bool) (s : State) : State := { s with sysex := f }

/-- `signal(ResetEvent)` (R38, log entry 8). -/
def signalReset (s : State) : State := { s with resetEvents := s.resetEvents + 1 }

/-- The part of the parser's state that classifies a byte. -/
def decodeCtx (s : State) : DecodeCtx := ⟨s.sysex, s.cnt, s.rs⟩

/-- `Deliver(b)`, the Upstream step: the byte held before, if any, is lost (R21). -/
def deliver (b : Byte) (s : State) : State := { s with rxHold := b, rxFull := true }

/-- `rx_full <- 0`: the Parser step takes the held byte (R110). -/
def consumeByte (s : State) : State := { s with rxFull := false }

/-- The value of the cell counter: the cells of the current phase already emitted (R33). It is `k` itself while the phase has at
most 65535 cells (log entry 7). -/
def cellsDone (s : State) : Nat := s.k.toNat + 65536 * s.kOver

/-- `k <- n`, the rest of a count past 16 bits in `kOver` (R33, log entry 7). -/
def setCells (n : Nat) (s : State) : State := { s with k := BitVec.ofNat 16 n, kOver := n / 65536 }

/-- `emit(l)`: the line takes level `l` for one bit cell (R180). -/
def emit (l : Bool) (s : State) : State := { s with line := l }

/-- Go on with a next state, or stop as before. -/
def mapNext (f : State → State) : Host.Outcome State Fault Refusal → Host.Outcome State Fault Refusal
  | .next s => .next (f s)
  | .fault r => .fault r
  | .refused r => .refused r

end Sys2Proof.Machine
end

