-- ==== Sys2Proof/Machine/Mapper.lean ====
section
/-! DEFINITION. The dispatch stage, the Zone Mapper (spec/41_mapper.md R150 to R163), and the completion of a message
(spec/40_parser.md R134). One definition per message. -/

namespace Sys2Proof.Machine

/-- NOTE_OFF: writes the slot with an even value iff the zone's mode is 1 (R154). -/
def mapNoteOff (z : Zone) (note vel : Data7) (s : State) : State :=
  if modeTakesNoteOff (zoneMode z s) then memWrite (slotIndex z note) (slotValue vel false) s else s

/-- NOTE_ON: writes the slot with an odd value, whatever the mode (R155). -/
def mapNoteOn (z : Zone) (note vel : Data7) (s : State) : State := memWrite (slotIndex z note) (slotValue vel true) s

/-- POLY_PRESSURE: writes the slot with an even value iff the zone's mode is 2 or 3 (R156). -/
def mapPolyPressure (z : Zone) (note p : Data7) (s : State) : State :=
  if modeTakesPressure (zoneMode z s) then memWrite (slotIndex z note) (slotValue p false) s else s

/-- CONTROL_CHANGE: no mapping effect (R157). -/
def mapControlChange (_z : Zone) (_x _v : Data7) (s : State) : State := s

/-- PROGRAM_CHANGE: stores the mode and recomputes the count (R158). -/
def mapProgramChange (z : Zone) (m : Data7) (s : State) : State :=
  let s' := setZoneMode z (dataByte m) s
  setAccCode (prio s'.mode) s'

/-- CHANNEL_PRESSURE: no mapping effect (R160). -/
def mapChannelPressure (_z : Zone) (_p : Data7) (s : State) : State := s

/-- PITCH_BEND: no mapping effect (R161). -/
def mapPitchBend (_z : Zone) (_lo _hi : Data7) (s : State) : State := s

/-- The choice by message type, for a zone the filters let through (R151). A System message (type 0xF) returns (R162). A message
always carries the data values its type takes (log entry 11). -/
def mapZone (z : Zone) (m : Msg) (s : State) : State :=
  match statusType m.status, m.d1, m.d2 with
  | 0x8#4, some note, some vel => mapNoteOff z note vel s
  | 0x9#4, some note, some vel => mapNoteOn z note vel s
  | 0xA#4, some note, some p => mapPolyPressure z note p s
  | 0xB#4, some x, some v => mapControlChange z x v s
  | 0xC#4, some prog, _ => mapProgramChange z prog s
  | 0xD#4, some p, _ => mapChannelPressure z p s
  | 0xE#4, some lo, some hi => mapPitchBend z lo hi s
  | _, _, _ => s

/-- `Dispatch(m)`: the type filter, then the zone filter, then the message (R150, R151). -/
def dispatch (m : Msg) (s : State) : State :=
  if statusType m.status = 0xF#4 then s
  else
    match zoneOf (statusChan m.status) with
    | none => s
    | some z => mapZone z m s

/-- `Complete()`: dispatch the buffered message, then `cnt <- 0` (R110, R134). -/
def complete (s : State) : State := setCnt 0#2 (dispatch (bufferedMsg s.buf s.cnt.toNat) s)

/-- The completion test after a byte is stored: `cnt = Len(buf[0])` (R134). -/
def completeIfFull (s : State) : State := if msgLen s.buf[0] = some s.cnt.toNat then complete s else s

/-- A status byte starts a message, abandoning one in progress: `buf[0] <- b; cnt <- 1`, then the completion test (R110). -/
def startMessage (b : Byte) (s : State) : State := completeIfFull (setCnt 1#2 (setBuf 0 b s))

end Sys2Proof.Machine
end

