-- ==== Sys2Proof/Machine/ChannelVoice.lean ====
section
/-! DEFINITION. The meanings of the Channel Voice status bytes (spec/40_parser.md R123). The message they start acts when its
last data byte arrives (Machine/Data.lean), by the rules of spec/41_mapper.md (Machine/Mapper.lean). -/

namespace Sys2Proof.Machine

/-- A Channel Voice status byte: `rs <- b; buf[0] <- b; cnt <- 1` (R123). -/
def channelVoice (b : Byte) (s : State) : Host.Outcome State Fault Refusal := .next (startMessage b (setRs b s))

/-- NOTE_OFF: the status byte 0x8n (R123); the message acts by R154. -/
def execNoteOff (chan : Chan) (s : State) : Host.Outcome State Fault Refusal := channelVoice (0x8#4 ++ chan) s

/-- NOTE_ON: the status byte 0x9n (R123); the message acts by R155. -/
def execNoteOn (chan : Chan) (s : State) : Host.Outcome State Fault Refusal := channelVoice (0x9#4 ++ chan) s

/-- POLY_PRESSURE: the status byte 0xAn (R123); the message acts by R156. -/
def execPolyPressure (chan : Chan) (s : State) : Host.Outcome State Fault Refusal := channelVoice (0xA#4 ++ chan) s

/-- CONTROL_CHANGE: the status byte 0xBn (R123); the message acts by R157. -/
def execControlChange (chan : Chan) (s : State) : Host.Outcome State Fault Refusal := channelVoice (0xB#4 ++ chan) s

/-- PROGRAM_CHANGE: the status byte 0xCn (R123); the message acts by R158. -/
def execProgramChange (chan : Chan) (s : State) : Host.Outcome State Fault Refusal := channelVoice (0xC#4 ++ chan) s

/-- CHANNEL_PRESSURE: the status byte 0xDn (R123); the message acts by R160. -/
def execChannelPressure (chan : Chan) (s : State) : Host.Outcome State Fault Refusal := channelVoice (0xD#4 ++ chan) s

/-- PITCH_BEND: the status byte 0xEn (R123); the message acts by R161. -/
def execPitchBend (chan : Chan) (s : State) : Host.Outcome State Fault Refusal := channelVoice (0xE#4 ++ chan) s

end Sys2Proof.Machine
end

