-- ==== Sys2Proof/Machine/Data.lean ====
section
/-! DEFINITION. The meanings of the data bytes (spec/40_parser.md R131 to R134). -/

namespace Sys2Proof.Machine

/-- DATA_RUNNING_STATUS: the running status is buffered as the status byte, the data byte as data byte 1 (R131). -/
def execDataRunningStatus (value : Data7) (s : State) : Host.Outcome State Fault Refusal :=
  .next (completeIfFull (setCnt 2#2 (setBuf 1 (dataByte value) (setBuf 0 s.rs s))))

/-- DATA_NO_STATUS: the byte is discarded (R132). -/
def execDataNoStatus (_value : Data7) (s : State) : Host.Outcome State Fault Refusal := .next s

/-- DATA_CONTINUE: the byte is stored at `buf[cnt]` and counted (R133), and the message may be complete (R134). -/
def execDataContinue (value : Data7) (s : State) : Host.Outcome State Fault Refusal :=
  .next (completeIfFull (setCnt (s.cnt + 1#2) (setBuf s.cnt.toNat (dataByte value) s)))

end Sys2Proof.Machine
end

