-- ==== Sys2Proof/Machine/RealTime.lean ====
section
/-! DEFINITION. The meanings of the System Real-Time bytes: each is transparently ignored (spec/40_parser.md R112 to R119). -/

namespace Sys2Proof.Machine

/-- RT_F8 (R113). -/
def execRtF8 (s : State) : Host.Outcome State Fault Refusal := .next s

/-- RT_F9, an undefined code, ignored like the defined ones (R114). -/
def execRtF9 (s : State) : Host.Outcome State Fault Refusal := .next s

/-- RT_FA (R115). -/
def execRtFA (s : State) : Host.Outcome State Fault Refusal := .next s

/-- RT_FB (R116). -/
def execRtFB (s : State) : Host.Outcome State Fault Refusal := .next s

/-- RT_FC (R117). -/
def execRtFC (s : State) : Host.Outcome State Fault Refusal := .next s

/-- RT_FD, an undefined code, ignored by the Real-Time rule (R118, conflict C2). -/
def execRtFD (s : State) : Host.Outcome State Fault Refusal := .next s

/-- RT_FE (R119). -/
def execRtFE (s : State) : Host.Outcome State Fault Refusal := .next s

end Sys2Proof.Machine
end

