-- ==== Sys2Proof/Machine/SysEx.lean ====
section
/-! DEFINITION. The meanings of the bytes that open, fill and close a SysEx sequence (spec/40_parser.md R120 to R122). -/

namespace Sys2Proof.Machine

/-- SYSEX_START: enter SysEx, abandoning the message in progress (R122). -/
def execSysexStart (s : State) : Host.Outcome State Fault Refusal := .next (setCnt 0#2 (setSysex true s))

/-- SYSEX_BYTE: the byte is discarded (R120). -/
def execSysexByte (_b : Byte) (s : State) : Host.Outcome State Fault Refusal := .next s

/-- EOX: leave SysEx (R121). -/
def execEox (s : State) : Host.Outcome State Fault Refusal := .next (setSysex false s)

end Sys2Proof.Machine
end

