-- ==== Sys2Proof/Machine/SystemCommon.lean ====
section
/-! DEFINITION. The meanings of the System Common status bytes outside SysEx (spec/40_parser.md R124 to R130). None writes `rs`. -/

namespace Sys2Proof.Machine

/-- SC_F1: starts a 2-byte message (R124). -/
def execScF1 (s : State) : Host.Outcome State Fault Refusal := .next (startMessage 0xF1#8 s)

/-- SC_F2: starts a 3-byte message (R125). -/
def execScF2 (s : State) : Host.Outcome State Fault Refusal := .next (startMessage 0xF2#8 s)

/-- SC_F3: starts a 2-byte message (R126). -/
def execScF3 (s : State) : Host.Outcome State Fault Refusal := .next (startMessage 0xF3#8 s)

/-- SC_F4: a 1-byte message, complete at once (R127). -/
def execScF4 (s : State) : Host.Outcome State Fault Refusal := .next (startMessage 0xF4#8 s)

/-- SC_F5: a 1-byte message, complete at once (R128). -/
def execScF5 (s : State) : Host.Outcome State Fault Refusal := .next (startMessage 0xF5#8 s)

/-- SC_F6: a 1-byte message, complete at once (R129). -/
def execScF6 (s : State) : Host.Outcome State Fault Refusal := .next (startMessage 0xF6#8 s)

/-- EOX_STRAY, of length 0: the message in progress is abandoned and nothing is dispatched (R130). -/
def execEoxStray (s : State) : Host.Outcome State Fault Refusal := .next (setCnt 0#2 s)

end Sys2Proof.Machine
end

