-- ==== Sys2Proof/Machine/SystemReset.lean ====
section
/-! DEFINITION. The meaning of the System Reset byte (spec/40_parser.md R111, spec/70_reset_and_hazards.md R251). -/

namespace Sys2Proof.Machine

/-- The parser registers at their power-on values (R111). -/
def resetParser (s : State) : State :=
  { s with rs := 0x00#8, buf := #v[0x00#8, 0x00#8, 0x00#8], cnt := 0#2, sysex := false }

/-- The Zone Mode Table and the count at their power-on values (R111). -/
def resetTables (s : State) : State := setAccCode 0#3 { s with mode := #v[0x00#8, 0x00#8, 0x00#8, 0x00#8] }

/-- Every slot of the frame buffer at 0x00, in this one step (R58, R111). -/
def clearSlots (s : State) : State := { s with fb := Memory.clear }

/-- SYSTEM_RESET: the parser, the tables and the frame buffer at their power-on values, and one `ResetEvent` (R111). The
Transmitter's state is not written. -/
def execSystemReset (s : State) : Host.Outcome State Fault Refusal :=
  .next (signalReset (clearSlots (resetTables (resetParser s))))

end Sys2Proof.Machine
end

