-- ==== Sys2Proof/Machine/Dispatch.lean ====
section
/-! DEFINITION. The meaning of each instruction, one arm per constructor. -/

namespace Sys2Proof.Machine

def exec (i : Instr) (s : State) : Host.Outcome State Fault Refusal :=
  match i with
  | .dataRunningStatus value => Sys2Proof.Machine.execDataRunningStatus value s
  | .dataNoStatus value => Sys2Proof.Machine.execDataNoStatus value s
  | .dataContinue value => Sys2Proof.Machine.execDataContinue value s
  | .sysexByte b => Sys2Proof.Machine.execSysexByte b s
  | .noteOff chan => Sys2Proof.Machine.execNoteOff chan s
  | .noteOn chan => Sys2Proof.Machine.execNoteOn chan s
  | .polyPressure chan => Sys2Proof.Machine.execPolyPressure chan s
  | .controlChange chan => Sys2Proof.Machine.execControlChange chan s
  | .programChange chan => Sys2Proof.Machine.execProgramChange chan s
  | .channelPressure chan => Sys2Proof.Machine.execChannelPressure chan s
  | .pitchBend chan => Sys2Proof.Machine.execPitchBend chan s
  | .sysexStart => Sys2Proof.Machine.execSysexStart s
  | .scF1 => Sys2Proof.Machine.execScF1 s
  | .scF2 => Sys2Proof.Machine.execScF2 s
  | .scF3 => Sys2Proof.Machine.execScF3 s
  | .scF4 => Sys2Proof.Machine.execScF4 s
  | .scF5 => Sys2Proof.Machine.execScF5 s
  | .scF6 => Sys2Proof.Machine.execScF6 s
  | .eox => Sys2Proof.Machine.execEox s
  | .eoxStray => Sys2Proof.Machine.execEoxStray s
  | .rtF8 => Sys2Proof.Machine.execRtF8 s
  | .rtF9 => Sys2Proof.Machine.execRtF9 s
  | .rtFA => Sys2Proof.Machine.execRtFA s
  | .rtFB => Sys2Proof.Machine.execRtFB s
  | .rtFC => Sys2Proof.Machine.execRtFC s
  | .rtFD => Sys2Proof.Machine.execRtFD s
  | .rtFE => Sys2Proof.Machine.execRtFE s
  | .systemReset => Sys2Proof.Machine.execSystemReset s

end Sys2Proof.Machine
end

