-- ==== Sys2Proof/Machine/Transmitter.lean ====
section
/-! DEFINITION. The Transmitter's step: one bit cell of the DMX512 line (spec/42_transmitter.md R180 to R193). -/

namespace Sys2Proof.Machine

/-- One cell at level `l` of a phase of `len` cells; after the last of them `done` sets the next phase (R193). -/
def phaseCell (l : Bool) (len : Nat) (done : State → State) (s : State) : State :=
  let n := cellsDone s + 1
  if n = len then done (setCells 0 (emit l s)) else setCells n (emit l s)

/-- A cell of the BREAK (R185, R193). -/
def breakCell (s : State) : State := phaseCell false s.cfg.breakBits (fun t => { t with ph := .mab }) s

/-- A cell of the Mark-After-Break; after it the start code is framed (R186, R193). -/
def mabCell (s : State) : State := phaseCell true s.cfg.mabBits (fun t => { t with ph := .frm, sym := 0#10 }) s

/-- A cell of an inter-slot mark (R191, R193). -/
def mtbsCell (s : State) : State := phaseCell true s.cfg.mtbsBits (fun t => { t with ph := .frm }) s

/-- A cell of the Mark-Before-Packet (R192, R193). -/
def mbbCell (s : State) : State := phaseCell true s.cfg.mbbBits (fun t => { t with ph := .cstart }) s

/-- After the last cell of a framed byte: the last slot has been sent, or the next slot follows (R190). -/
def nextSymbol (s : State) : State :=
  if s.sym = s.latched then { s with ph := if s.cfg.mbbBits = 0 then .cstart else .mbb }
  else { s with sym := s.sym + 1#10, ph := if s.cfg.mtbsBits = 0 then .frm else .mtbs }

/-- A cell of a framed byte at level `l` (R188, R189, R193). -/
def frameCell (l : Bool) (s : State) : State := phaseCell l Config.frameBits nextSymbol s

/-- The byte to be framed: the start code, or the slot `s - 1` read live (R187). -/
def symbolByte (s : State) : Except Fault Byte :=
  if s.sym = 0#10 then .ok Config.startCode else memRead (s.sym.toNat - 1) s

/-- A cell of a framed byte: the start bit latches the byte, then the data bits, least significant first, then the two stop bits
(R187, R188, R189). -/
def frmStep (s : State) : Host.Outcome State Fault Refusal :=
  if cellsDone s = 0 then
    match symbolByte s with
    | .ok b => .next (frameCell false { s with sh := b })
    | .error e => .fault e
  else if cellsDone s ≤ 8 then .next (frameCell (s.sh.getLsbD (cellsDone s - 1)) s)
  else .next (frameCell true s)

/-- The start of a cycle: the count is read and the indicators follow it; a count of 0 gives an idle cell, any other the first
cell of the BREAK (R182, R183, R184, R185). -/
def cstartStep (s : State) : State :=
  let n := readCount s
  let s' := { s with latched := n, indGroup := groupsOn n }
  if n = 0#10 then emit true s' else breakCell (setCells 0 { s' with ph := .brk })

/-- The cell of the current phase (R193). -/
def txCell (s : State) : Host.Outcome State Fault Refusal :=
  match s.ph with
  | .cstart => .next (cstartStep s)
  | .brk => .next (breakCell s)
  | .mab => .next (mabCell s)
  | .mtbs => .next (mtbsCell s)
  | .frm => frmStep s
  | .mbb => .next (mbbCell s)

/-- The Transmitter step: one cell, after which `Hacc` starts again from the current count (R68, R193). -/
def txStep (s : State) : Host.Outcome State Fault Refusal := mapNext resetHacc (txCell s)

end Sys2Proof.Machine
end

