-- ==== Sys2Proof/Machine/Agents.lean ====
section
/-! DEFINITION. The agents' steps and the choice of the agent that moves (spec/00_scope.md R8, spec/40_parser.md R110). -/

namespace Sys2Proof.Machine

/-- The instruction the held byte is, in the parser's state (R110). -/
def heldInstr (s : State) : Instr := decodeByte (decodeCtx s) s.rxHold

/-- The Parser step: enabled iff `rx_full = 1`; it takes the byte and runs it to completion (R9, R110). A Parser that is not
enabled does not move (log entry 3). -/
def parserStep (s : State) : Host.Outcome State Fault Refusal :=
  if s.rxFull then exec (heldInstr s) (consumeByte s) else .next s

/-- The next move: the one laid down, or else a free choice (R8, log entry 2). -/
def nextMove (s : State) : Move :=
  match s.agenda with
  | m :: _ => m
  | [] => Config.freeMove s.tick

/-- The move is taken: it leaves the agenda, and the index of the free values goes on (log entry 5). -/
def takeMove (s : State) : State := { s with agenda := s.agenda.tail, tick := s.tick + 1 }

/-- One move of one agent (R8). -/
def runMove (m : Move) (s : State) : Host.Outcome State Fault Refusal :=
  match m with
  | .deliver b => .next (deliver b s)
  | .parser => parserStep s
  | .transmitter => txStep s

/-- Place a byte in the receive register with the Parser as the next to move. -/
def placeByte (b : Byte) (s : State) : State := { deliver b s with agenda := .parser :: s.agenda }

end Sys2Proof.Machine
end

