-- ==== Sys2Proof/Machine/Step.lean ====
section
/-! DEFINITION. One step of the machine: one atomic step of one agent (spec/00_scope.md R8, R9). -/

namespace Sys2Proof.Machine

/-- One step: a configuration that R5 refuses never moves (R221); otherwise the next agent takes its atomic step. -/
def step (s : State) : Host.Outcome State Fault Refusal :=
  if s.cfg.legal then runMove (nextMove s) (takeMove s) else .fault .configRefused

/-- The state with the instruction of a table word held in the receive register and the Parser next to move (log entry 9). -/
def State.withFetchWord (s : State) (nbits w : Nat) : State :=
  match tableBytes nbits w with
  | b :: _ => placeByte b s
  | [] => s

end Sys2Proof.Machine
end

