-- ==== Sys2Proof/Machine/StreamForms.lean ====
section
/-! DEFINITION. The symbolic forms in which the spec writes input streams, with their expansion into bytes
(spec/30_encoding.md R83, R93). -/

namespace Sys2Proof.Machine

/-- A symbolic form of R93. -/
inductive Form where
  /-- `NOTE_OFF c, note, vel`. -/
  | noteOff (c : Chan) (note vel : Data7)
  /-- `NOTE_ON c, note, vel`. -/
  | noteOn (c : Chan) (note vel : Data7)
  /-- `POLY c, note, p`. -/
  | poly (c : Chan) (note p : Data7)
  /-- `CC c, x, v`. -/
  | cc (c : Chan) (x v : Data7)
  /-- `PROG c, m`. -/
  | prog (c : Chan) (m : Data7)
  /-- `CPRESS c, p`. -/
  | cpress (c : Chan) (p : Data7)
  /-- `BEND c, lo, hi`. -/
  | bend (c : Chan) (lo hi : Data7)
  /-- `RS d1[, d2]`, a running-status message. -/
  | rs (d1 : Data7) (d2 : Option Data7)
  /-- `ZONE_MODE z, m`, which is `PROG z, m`. -/
  | zoneMode (z : Zone) (m : Data7)
  /-- `SYSEX x1 … xn`. -/
  | sysex (xs : List Byte)
  /-- `SC b[, d1[, d2]]`. -/
  | sc (b : Byte) (ds : List Data7)
  /-- `RT b`. -/
  | rt (b : Byte)
  /-- `RESET`. -/
  | reset
  deriving DecidableEq, Repr

/-- The limits R83 and R93 put on the operands that their types do not: SysEx content holds neither 0xF7 nor 0xFF, `SC` takes a
byte in 0xF1-0xF7 and at most two data bytes, `RT` takes a Real-Time byte. -/
def Form.wellFormed : Form → Bool
  | .sysex xs => xs.all fun x => x != 0xF7#8 && x != 0xFF#8
  | .sc b ds => isSystemCommon b && b != 0xF0#8 && decide (ds.length ≤ 2)
  | .rt b => isRealTime b
  | .noteOff _ _ _ | .noteOn _ _ _ | .poly _ _ _ | .cc _ _ _ | .prog _ _ | .cpress _ _ | .bend _ _ _ => true
  | .rs _ _ | .zoneMode _ _ | .reset => true

/-- The bytes a form stands for (R93). -/
def Form.bytes : Form → List Byte
  | .noteOff c note vel => [0x8#4 ++ c, dataByte note, dataByte vel]
  | .noteOn c note vel => [0x9#4 ++ c, dataByte note, dataByte vel]
  | .poly c note p => [0xA#4 ++ c, dataByte note, dataByte p]
  | .cc c x v => [0xB#4 ++ c, dataByte x, dataByte v]
  | .prog c m => [0xC#4 ++ c, dataByte m]
  | .cpress c p => [0xD#4 ++ c, dataByte p]
  | .bend c lo hi => [0xE#4 ++ c, dataByte lo, dataByte hi]
  | .rs d1 none => [dataByte d1]
  | .rs d1 (some d2) => [dataByte d1, dataByte d2]
  | .zoneMode z m => [0xC#4 ++ (0b00#2 ++ z), dataByte m]
  | .sysex xs => 0xF0#8 :: (xs ++ [0xF7#8])
  | .sc b ds => b :: ds.map dataByte
  | .rt b => [b]
  | .reset => [0xFF#8]

end Sys2Proof.Machine
end

