-- ==== Sys2Proof/Machine/Waveform.lean ====
section
/-! DEFINITION. The output encoding on the DMX line as sequences of cell levels, true for mark (spec/30_encoding.md R94 to R99),
and the lengths of a cycle (spec/42_transmitter.md R181, R194). -/

namespace Sys2Proof.Machine

/-- `LOW(d)`: `d` cells at level 0 (R94). -/
def lowCells (d : Nat) : List Bool := List.replicate d false

/-- `HIGH(d)`: `d` cells at level 1 (R94). -/
def highCells (d : Nat) : List Bool := List.replicate d true

/-- `BYTE(v)`: a start bit at 0, the data bits least significant first, two stop bits at 1 (R95). -/
def framedByte (v : Byte) : List Bool := false :: ((List.range 8).map v.getLsbD ++ [true, true])

/-- An inter-slot mark and a slot's framed byte (R94, R191). -/
def slotCells (c : Config) (v : Byte) : List Bool := highCells c.mtbsBits ++ framedByte v

/-- `Cycle(N)` of R94, with the slot bytes `vs` in order. -/
def cycleCells (c : Config) (vs : List Byte) : List Bool :=
  lowCells c.breakBits ++ (highCells c.mabBits ++ (framedByte Config.startCode ++ (vs.flatMap (slotCells c) ++ highCells c.mbbBits)))

/-- The first `n` slots of the frame buffer, in order. -/
def firstSlots (fb : Memory) (n : Nat) : List Byte := (List.range n).map fb.read

/-- The cells of a phase (R181, R185 to R192); a `CSTART` step is one cell. -/
def phaseLength (c : Config) : Phase → Nat
  | .cstart => 1
  | .brk => c.breakBits
  | .mab => c.mabBits
  | .frm => Config.frameBits
  | .mtbs => c.mtbsBits
  | .mbb => c.mbbBits

/-- `C(N)`, the cells of a cycle with `N > 0` (R194). -/
def cycleLength (c : Config) (n : Nat) : Nat :=
  c.breakBits + c.mabBits + Config.frameBits + n * (c.mtbsBits + Config.frameBits) + c.mbbBits

/-- The offset of slot `j`'s start bit, counted from 0 at `CSTART` (R194). -/
def slotOffset (c : Config) (j : Nat) : Nat :=
  c.breakBits + c.mabBits + Config.frameBits + j * (c.mtbsBits + Config.frameBits) + c.mtbsBits

/-- The nominal microseconds of `n` cells (R97). -/
def cellsUs (n : Nat) : Nat := n * Config.bitUs

/-- The cells of the current cycle still to be emitted; none at the start of a cycle (R194, R196). -/
def cellsLeft (s : State) : Nat :=
  let slot := s.cfg.mtbsBits + Config.frameBits
  let n := s.latched.toNat
  match s.ph with
  | .cstart => 0
  | .brk => (s.cfg.breakBits - cellsDone s) + s.cfg.mabBits + Config.frameBits + n * slot + s.cfg.mbbBits
  | .mab => (s.cfg.mabBits - cellsDone s) + Config.frameBits + n * slot + s.cfg.mbbBits
  | .frm => (Config.frameBits - cellsDone s) + (n - s.sym.toNat) * slot + s.cfg.mbbBits
  | .mtbs => (s.cfg.mtbsBits - cellsDone s) + Config.frameBits + (n - s.sym.toNat) * slot + s.cfg.mbbBits
  | .mbb => s.cfg.mbbBits - cellsDone s

end Sys2Proof.Machine
end

