-- ==== Sys2Proof/Machine/Runs.lean ====
section
/-! DEFINITION. Sequences of steps of one agent, in whose terms claims are stated: instructions in a row, bytes delivered and
consumed one by one (spec/60_exceptions.md R231, spec/95_test_vectors.md), and Transmitter steps with the cells they emit
(spec/00_scope.md R10). -/

namespace Sys2Proof.Machine

/-- Instructions executed one after another, stopping at the first that does not answer a next state. -/
def execSeq : List Instr → State → Host.Outcome State Fault Refusal
  | [], s => .next s
  | i :: is, s =>
    match exec i s with
    | .next t => execSeq is t
    | .fault r => .fault r
    | .refused r => .refused r

/-- One byte delivered and consumed, with no other step between (R231). -/
def feedByte (b : Byte) (s : State) : Host.Outcome State Fault Refusal := parserStep (deliver b s)

/-- Bytes delivered and consumed one by one, so that none is lost (R231). -/
def feed : List Byte → State → Host.Outcome State Fault Refusal
  | [], s => .next s
  | b :: bs, s =>
    match feedByte b s with
    | .next t => feed bs t
    | .fault r => .fault r
    | .refused r => .refused r

/-- `n` Transmitter steps in a row: the cells they emit and the state they end in; none if one of them faults. -/
def txRun : Nat → State → Option (List Bool × State)
  | 0, s => some ([], s)
  | n + 1, s =>
    match txStep s with
    | .next t => (txRun n t).map fun p => (t.line :: p.1, p.2)
    | .fault _ => none
    | .refused _ => none

/-- The cell a step emits to the DMX line: the level after a Transmitter step, none at any other step (R10, R230). -/
def emittedCell (s : State) : Option Bool :=
  match nextMove s, step s with
  | .transmitter, .next t => some t.line
  | _, _ => none

end Sys2Proof.Machine
end

