-- ==== Sys2Proof/Safety.lean ====
section
/-! DEFINITION. What holds between any two steps of a run that started at power-on (spec/10_state.md R24, R27 to R35;
spec/41_mapper.md R159), the Upstream's duty (spec/60_exceptions.md R231) and weak fairness (spec/00_scope.md R8). -/

namespace Sys2Proof.Machine

/-- The parser's registers between steps (R22, R24, R27). -/
abbrev ParserInv (s : State) : Prop :=
  (s.rs = 0x00#8 ∨ isChannelVoice s.rs = true) ∧
  s.cnt ≠ 3#2 ∧
  (s.cnt ≠ 0#2 → 0x80 ≤ s.buf[0].toNat ∧ s.buf[0] ≠ 0xF0#8 ∧ (msgLen s.buf[0]).any (fun len => decide (s.cnt.toNat < len)) = true) ∧
  (s.cnt = 2#2 → isData s.buf[1] = true) ∧
  (s.sysex = true → s.cnt = 0#2)

/-- The values `V = 128 · acc_code` takes: 0, 128, 256, 384 and 512 (R29, R30, R68). -/
abbrev accValues : List (BitVec 16) := [0#16, 128#16, 256#16, 384#16, 512#16]

/-- The shared tables between steps: the modes are 7-bit values (R28), the count is the priority of the modes (R158, R159, and 0
with every mode 0 at power-on), and `Hacc` is a set of count values that holds the current one (R68). -/
abbrev TableInv (s : State) : Prop :=
  (∀ m ∈ s.mode.toList, m.toNat < 0x80) ∧
  s.accCode = prio s.mode ∧
  s.hacc.Nodup ∧
  accWord s.accCode ∈ s.hacc ∧
  (∀ v ∈ s.hacc, v ∈ accValues)

/-- The counts a cycle can latch: those of R35, and 640 with `ACC_TEAR = true` (R68). -/
abbrev latchable (c : Config) : List (BitVec 10) :=
  if c.accTear then [0#10, 128#10, 256#10, 384#10, 512#10, 640#10] else [0#10, 128#10, 256#10, 384#10, 512#10]

/-- The cell counter and the symbol index are in the range of the current phase (R33, R34). -/
abbrev PhaseInv (s : State) : Prop :=
  (s.ph = .cstart → cellsDone s = 0 ∧ s.sym.toNat ≤ 512) ∧
  (s.ph = .brk → cellsDone s < s.cfg.breakBits ∧ s.latched ≠ 0#10 ∧ s.sym.toNat ≤ 512) ∧
  (s.ph = .mab → cellsDone s < s.cfg.mabBits ∧ s.latched ≠ 0#10 ∧ s.sym.toNat ≤ 512) ∧
  (s.ph = .frm → cellsDone s < Config.frameBits ∧ s.latched ≠ 0#10 ∧ s.sym.toNat ≤ s.latched.toNat ∧
    (s.sym.toNat ≤ 512 ∨ (s.sym = 513#10 ∧ cellsDone s = 0))) ∧
  (s.ph = .mtbs → cellsDone s < s.cfg.mtbsBits ∧ s.latched ≠ 0#10 ∧ 1 ≤ s.sym.toNat ∧ s.sym.toNat ≤ s.latched.toNat ∧ s.sym.toNat ≤ 513) ∧
  (s.ph = .mbb → cellsDone s < s.cfg.mbbBits ∧ s.latched ≠ 0#10 ∧ s.sym = s.latched ∧ s.sym.toNat ≤ 512)

/-- The Transmitter's registers between steps (R33, R34, R35). -/
abbrev TxInv (s : State) : Prop := s.latched ∈ latchable s.cfg ∧ PhaseInv s

/-- Everything that holds between steps: the parser, the tables, the frame buffer's canonical form and the Transmitter. -/
abbrev Inv (s : State) : Prop := ParserInv s ∧ TableInv s ∧ s.fb.wf ∧ TxInv s

/-- The receive register is as before (R21). -/
abbrev SameRx (s t : State) : Prop := t.rxHold = s.rxHold ∧ t.rxFull = s.rxFull

/-- The parser's registers are as before (R22 to R25). -/
abbrev SameParser (s t : State) : Prop := t.rs = s.rs ∧ t.buf = s.buf ∧ t.cnt = s.cnt ∧ t.sysex = s.sysex

/-- The Zone Mode Table and the count, with its history, are as before (R28, R29, R68). -/
abbrev SameTables (s t : State) : Prop := t.mode = s.mode ∧ t.accCode = s.accCode ∧ t.hacc = s.hacc

/-- Every slot of the frame buffer reads as before (R53). -/
abbrev SameSlots (s t : State) : Prop := ∀ a, t.fb.read a = s.fb.read a

/-- The Transmitter's registers and outputs are as before (R32 to R38). -/
abbrev SameTx (s t : State) : Prop :=
  t.ph = s.ph ∧ t.k = s.k ∧ t.kOver = s.kOver ∧ t.sym = s.sym ∧ t.latched = s.latched ∧ t.sh = s.sh ∧ t.line = s.line ∧ t.indGroup = s.indGroup

/-- The model's own fields are as before: the configuration, the schedule and the free-value index. -/
abbrev SameEnv (s t : State) : Prop := t.cfg = s.cfg ∧ t.agenda = s.agenda ∧ t.tick = s.tick

/-- The Upstream keeps its duty at this state: it delivers only when no byte is held (R231). -/
abbrev NoOverrun (s : State) : Prop := ∀ b, nextMove s = .deliver b → s.rxFull = false

/-- `r` is an infinite execution (R10). -/
def IsRun (r : Nat → State) : Prop := ∀ n, step (r n) = .next (r (n + 1))

/-- Weak fairness: the Transmitter, always enabled, moves again and again, and a Parser that stays enabled moves in the end (R8). -/
def WeaklyFair (r : Nat → State) : Prop :=
  (∀ n, ∃ m, n ≤ m ∧ nextMove (r m) = .transmitter) ∧
  (∀ n, (∀ m, n ≤ m → (r m).rxFull = true) → ∃ m, n ≤ m ∧ nextMove (r m) = .parser)

end Sys2Proof.Machine
end

