-- ==== Sys2Proof/Certificates/Slice0/Obligations.lean ====
section
/-! DEFINITION. The statements for the provers. Each docstring names the rule of spec/ it formalises; where the spec marks a rule
as its own decision (D<n> of spec/92_eei_decisions.md) or as derived, or a log entry of the model takes part, it says so. -/

open Sys2Proof Sys2Proof.Machine

/-! ### Encoding -/

/-- Decoding the byte of a well-formed instruction gives the instruction back, in every state in which its row applies
(R82, R85 to R88; opcode_table.json). -/
def Obligations.DecodeOfEncodedInstr : Prop :=
  ∀ (ctx : DecodeCtx) (i : Instr) (rest : List Byte), i.wellFormed = true → i.appliesIn ctx = true →
    decode ctx (encode i :: rest) = .ok (i, rest)

/-- Every byte decodes in every state, to a well-formed instruction whose row applies there and whose encoding is that byte: no
byte is refused and no bit of it is lost (R91). -/
def Obligations.EveryByteDecodes : Prop :=
  ∀ (ctx : DecodeCtx) (b : Byte),
    (decodeByte ctx b).wellFormed = true ∧ (decodeByte ctx b).appliesIn ctx = true ∧ encode (decodeByte ctx b) = b

/-- A few bytes written out from the encodings of R82 and R85 to R88 decode to what they stand for. -/
def Obligations.WrittenOutBytesDecode : Prop :=
  decodeByte DecodeCtx.powerOn 0b10010011#8 = .noteOn 0b0011#4 ∧
  decodeByte DecodeCtx.powerOn 0b11001111#8 = .programChange 0b1111#4 ∧
  decodeByte ⟨false, 0b01#2, 0b10010000#8⟩ 0b00111100#8 = .dataContinue 0b0111100#7 ∧
  decodeByte ⟨true, 0b00#2, 0b10010000#8⟩ 0b11110111#8 = .eox ∧
  decodeByte ⟨true, 0b00#2, 0b10010000#8⟩ 0b11111111#8 = .systemReset

/-- R80: the five byte classes by their ranges, a data byte being one with bit 7 clear; every byte is in exactly one of them. -/
def Obligations.ByteClassesPartition : Prop :=
  ∀ b : Byte, [isData b, isChannelVoice b, isSystemCommon b, isRealTime b, isSystemReset b].count true = 1 ∧
    (isData b = true ↔ b.getLsbD 7 = false) ∧ (isData b = true ↔ b.toNat ≤ 0x7F) ∧
    (isChannelVoice b = true ↔ 0x80 ≤ b.toNat ∧ b.toNat ≤ 0xEF) ∧ (isSystemCommon b = true ↔ 0xF0 ≤ b.toNat ∧ b.toNat ≤ 0xF7) ∧
    (isRealTime b = true ↔ 0xF8 ≤ b.toNat ∧ b.toNat ≤ 0xFE) ∧ (isSystemReset b = true ↔ b.toNat = 0xFF)

/-- R84: the length function, by the type nibble and the table of eight entries, undefined on every other byte. -/
def Obligations.MessageLengthTable : Prop :=
  ∀ s : Byte, msgLen s =
    if 0x80 ≤ s.toNat ∧ s.toNat < 0xC0 ∨ 0xE0 ≤ s.toNat ∧ s.toNat < 0xF0 then some 3
    else if 0xC0 ≤ s.toNat ∧ s.toNat < 0xE0 then some 2
    else if 0xF0 ≤ s.toNat then [0, 2, 3, 2, 1, 1, 1, 0][s.toNat - 0xF0]?
    else none

/-! ### The step and its agents -/

/-- A step runs the decoded instruction: when the Parser is next and a byte is held, the step is `exec` of the instruction the byte
decodes to, on the state with the move taken and the byte consumed (R110; the schedule is the model's, log entries 2 and 5). -/
def Obligations.StepRunsDecodedInstr : Prop :=
  ∀ (s : State) (i : Instr) (rest : List Byte), s.cfg.legal = true → nextMove s = .parser → s.rxFull = true →
    decode (decodeCtx s) (s.rxHold :: rest) = .ok (i, rest) →
    step s = exec i { s with rxFull := false, agenda := s.agenda.tail, tick := s.tick + 1 }

/-- What a step is when the Parser does not run an instruction: a delivery overwrites the receive register whatever it held (R21,
D19), a Parser with no byte does not move (log entry 3), the Transmitter takes its step (R193). A move laid down on the agenda is the
next move (log entry 2). -/
def Obligations.StepOfOtherMoves : Prop :=
  (∀ (s : State) (m : Move) (ms : List Move), s.agenda = m :: ms → nextMove s = m) ∧
  (∀ (s : State) (b : Byte), s.cfg.legal = true → nextMove s = .deliver b →
    step s = .next { s with rxHold := b, rxFull := true, agenda := s.agenda.tail, tick := s.tick + 1 }) ∧
  (∀ s : State, s.cfg.legal = true → nextMove s = .parser → s.rxFull = false →
    step s = .next { s with agenda := s.agenda.tail, tick := s.tick + 1 }) ∧
  (∀ s : State, s.cfg.legal = true → nextMove s = .transmitter →
    step s = txStep { s with agenda := s.agenda.tail, tick := s.tick + 1 })

/-- A configuration below the minima of R5 is refused before anything moves, and no other is ever refused (R5, R221, D28). -/
def Obligations.ConfigBelowMinimaRefused : Prop :=
  ∀ s : State, step s = .fault .configRefused ↔ s.cfg.breakBits < 23 ∨ s.cfg.mabBits < 2

/-- R250: the power-on state of every configuration (the values of the Transmitter and of the line are the spec's D16 and D20; the
agenda, the free-value index and the event count are the model's, log entries 2, 5 and 8). -/
def Obligations.PowerOnValues : Prop :=
  ∀ c : Config, (State.powerOn c).rxHold = 0#8 ∧ (State.powerOn c).rxFull = false ∧ (State.powerOn c).rs = 0#8 ∧
    (State.powerOn c).buf = #v[0#8, 0#8, 0#8] ∧ (State.powerOn c).cnt = 0#2 ∧ (State.powerOn c).sysex = false ∧
    (State.powerOn c).mode = #v[0#8, 0#8, 0#8, 0#8] ∧ (State.powerOn c).accCode = 0#3 ∧
    (∀ a, (State.powerOn c).fb.read a = 0#8) ∧ (State.powerOn c).ph = .cstart ∧ (State.powerOn c).k = 0#16 ∧
    (State.powerOn c).sym = 0#10 ∧ (State.powerOn c).latched = 0#10 ∧ (State.powerOn c).sh = 0#8 ∧ (State.powerOn c).line = true ∧
    (State.powerOn c).indGroup = #v[false, false, false, false] ∧ (State.powerOn c).cfg = c ∧ State.reset = State.powerOn Config.defaults

/-! ### Real-Time bytes, System Reset, SysEx -/

/-- R112: each Real-Time byte changes nothing, whatever the parser's state; a Parser step that takes one only consumes it. -/
def Obligations.RealTimeBytesIgnored : Prop :=
  (∀ s : State, exec .rtF8 s = .next s ∧ exec .rtF9 s = .next s ∧ exec .rtFA s = .next s ∧ exec .rtFB s = .next s ∧
    exec .rtFC s = .next s ∧ exec .rtFD s = .next s ∧ exec .rtFE s = .next s) ∧
  (∀ s : State, s.rxFull = true → isRealTime s.rxHold = true → parserStep s = .next { s with rxFull := false })

/-- The System Reset byte (40_parser.md, section 2), in any parser state, sets the parser, the tables and every slot to their power-on values and signals
one event; the Transmitter is not written; a second reset changes nothing but the event count; a slot whose start bit comes after it
goes out as 0x00. The count of events is the model's field (log entry 8); that the byte is latched at the start bit is the spec's D17;
the model-only set `Hacc` keeps its values and gains 0 (20_memory.md, section 4; D10, log entry 6). -/
def Obligations.SystemResetEffect : Prop :=
  (∀ ctx : DecodeCtx, decodeByte ctx 0xFF#8 = .systemReset) ∧
  ∀ s : State, ∃ t : State, exec .systemReset s = .next t ∧
    t.rs = 0#8 ∧ t.buf = #v[0#8, 0#8, 0#8] ∧ t.cnt = 0#2 ∧ t.sysex = false ∧
    t.mode = #v[0#8, 0#8, 0#8, 0#8] ∧ t.accCode = 0#3 ∧ t.hacc = addValue 0#16 s.hacc ∧ (∀ a, t.fb.read a = 0#8) ∧
    t.resetEvents = s.resetEvents + 1 ∧ SameTx s t ∧ SameRx s t ∧ SameEnv s t ∧
    exec .systemReset t = .next { t with resetEvents := t.resetEvents + 1 } ∧
    (t.ph = .frm → cellsDone t = 0 → 1 ≤ t.sym.toNat → t.sym.toNat ≤ 512 → ∃ u, txStep t = .next u ∧ u.sh = 0#8)

/-- After a System Reset a cycle start reads the count 0: the Transmitter idles at mark with all indicators off (R251, R183, D16). -/
def Obligations.ResetThenTransmitterIdles : Prop :=
  ∀ s : State, s.ph = .cstart → s.cfg.accTear = false →
    ∃ t u : State, exec .systemReset s = .next t ∧ txStep t = .next u ∧
      u.latched = 0#10 ∧ u.indGroup = #v[false, false, false, false] ∧ u.line = true ∧ u.ph = .cstart

/-- R120: a byte of SysEx content is discarded, status bytes included; however many follow with no 0xF7 and no 0xFF, the parser stays
in SYSEX_SKIP and nothing but the receive register changes. -/
def Obligations.SysexContentDiscarded : Prop :=
  (∀ (s : State) (b : Byte), exec (.sysexByte b) s = .next s) ∧
  (∀ (s : State) (b : Byte), s.sysex = true → b.toNat < 0xF8 → b ≠ 0xF7#8 → decodeByte (decodeCtx s) b = .sysexByte b) ∧
  (∀ (s : State) (b : Byte) (bs : List Byte), s.sysex = true → (∀ x ∈ b :: bs, x ≠ 0xF7#8 ∧ x ≠ 0xFF#8) →
    feed (b :: bs) s = .next { s with rxHold := (b :: bs).getLast (by simp), rxFull := false })

/-- R121: 0xF7 inside SysEx clears the flag and nothing else; the parser is then in IDLE, and a data byte after it starts a
running-status message if there is a running status. -/
def Obligations.EoxLeavesSysex : Prop :=
  (∀ ctx : DecodeCtx, ctx.sysex = true → decodeByte ctx 0xF7#8 = .eox) ∧
  (∀ s : State, exec .eox s = .next { s with sysex := false }) ∧
  (∀ s : State, ParserInv s → s.sysex = true →
    parserState { s with sysex := false } = .idle ∧
    ∀ v : Data7, s.rs ≠ 0#8 → decodeByte (decodeCtx { s with sysex := false }) (dataByte v) = .dataRunningStatus v)

/-- 0xF0 outside SysEx enters SYSEX_SKIP, abandons the message in progress and keeps the running status (40_parser.md, SYSEX_START;
the abandoning is the spec's D8). -/
def Obligations.SysexStartEntersSkip : Prop :=
  (∀ ctx : DecodeCtx, ctx.sysex = false → decodeByte ctx 0xF0#8 = .sysexStart) ∧
  (∀ s : State, exec .sysexStart s = .next { s with sysex := true, cnt := 0#2 } ∧
    parserState { s with sysex := true, cnt := 0#2 } = .sysexSkip)

/-- SysEx transparency (40_parser.md, "SysEx transparency", which the spec marks as derived): 0xF0, any bytes but 0xF7 and 0xFF, and
0xF7 leave no trace but the abandoned message (D8) and the receive register. -/
def Obligations.SysexTransparency : Prop :=
  ∀ (s : State) (bs : List Byte), s.sysex = false → (∀ b ∈ bs, b ≠ 0xF7#8 ∧ b ≠ 0xFF#8) →
    feed (0xF0#8 :: (bs ++ [0xF7#8])) s = .next { s with cnt := 0#2, rxHold := 0xF7#8, rxFull := false }

/-! ### Status bytes -/

/-- A Channel Voice status byte becomes the running status and starts its message, whatever message was in progress (40_parser.md,
section 5; that it abandons the message is the spec's D4, that only these bytes write `rs` its D5). -/
def Obligations.ChannelVoiceStatusStarts : Prop :=
  ∀ (s : State) (c : Chan),
    exec (.noteOff c) s = .next { s with rs := 0x8#4 ++ c, buf := s.buf.set 0 (0x8#4 ++ c), cnt := 1#2 } ∧
    exec (.noteOn c) s = .next { s with rs := 0x9#4 ++ c, buf := s.buf.set 0 (0x9#4 ++ c), cnt := 1#2 } ∧
    exec (.polyPressure c) s = .next { s with rs := 0xA#4 ++ c, buf := s.buf.set 0 (0xA#4 ++ c), cnt := 1#2 } ∧
    exec (.controlChange c) s = .next { s with rs := 0xB#4 ++ c, buf := s.buf.set 0 (0xB#4 ++ c), cnt := 1#2 } ∧
    exec (.programChange c) s = .next { s with rs := 0xC#4 ++ c, buf := s.buf.set 0 (0xC#4 ++ c), cnt := 1#2 } ∧
    exec (.channelPressure c) s = .next { s with rs := 0xD#4 ++ c, buf := s.buf.set 0 (0xD#4 ++ c), cnt := 1#2 } ∧
    exec (.pitchBend c) s = .next { s with rs := 0xE#4 ++ c, buf := s.buf.set 0 (0xE#4 ++ c), cnt := 1#2 }

/-- A System Common status byte starts a message of its length and keeps the running status; one of length 1 is complete at once
(40_parser.md, section 6; D4 and D5 of the spec). -/
def Obligations.SystemCommonStatusStarts : Prop :=
  ∀ s : State,
    exec .scF1 s = .next { s with buf := s.buf.set 0 0xF1#8, cnt := 1#2 } ∧
    exec .scF2 s = .next { s with buf := s.buf.set 0 0xF2#8, cnt := 1#2 } ∧
    exec .scF3 s = .next { s with buf := s.buf.set 0 0xF3#8, cnt := 1#2 } ∧
    exec .scF4 s = .next { s with buf := s.buf.set 0 0xF4#8, cnt := 0#2 } ∧
    exec .scF5 s = .next { s with buf := s.buf.set 0 0xF5#8, cnt := 0#2 } ∧
    exec .scF6 s = .next { s with buf := s.buf.set 0 0xF6#8, cnt := 0#2 }

/-- A complete System Common message, of each of the six, leaves nothing behind but its own bytes in the buffer (41_mapper.md,
section 3; the status bytes by the spec's D4 and D5). -/
def Obligations.SystemCommonMessagesNoEffect : Prop :=
  ∀ (s : State) (d e : Data7),
    execSeq [.scF1, .dataContinue d] s = .next { s with buf := (s.buf.set 0 0xF1#8).set 1 (dataByte d), cnt := 0#2 } ∧
    execSeq [.scF2, .dataContinue d, .dataContinue e] s = .next { s with buf := #v[0xF2#8, dataByte d, dataByte e], cnt := 0#2 } ∧
    execSeq [.scF3, .dataContinue d] s = .next { s with buf := (s.buf.set 0 0xF3#8).set 1 (dataByte d), cnt := 0#2 } ∧
    execSeq [.scF4] s = .next { s with buf := s.buf.set 0 0xF4#8, cnt := 0#2 } ∧
    execSeq [.scF5] s = .next { s with buf := s.buf.set 0 0xF5#8, cnt := 0#2 } ∧
    execSeq [.scF6] s = .next { s with buf := s.buf.set 0 0xF6#8, cnt := 0#2 }

/-- 0xF7 outside SysEx abandons the message in progress and does nothing else (40_parser.md, EOX outside SysEx; the spec's D7). -/
def Obligations.StrayEoxClearsCount : Prop :=
  (∀ ctx : DecodeCtx, ctx.sysex = false → decodeByte ctx 0xF7#8 = .eoxStray) ∧
  (∀ s : State, exec .eoxStray s = .next { s with cnt := 0#2 })

/-! ### Data bytes -/

/-- A data byte with no message in progress and no running status is discarded (40_parser.md, section 7; the spec's D6). -/
def Obligations.DataWithoutStatusDiscarded : Prop :=
  (∀ v : Data7, decodeByte ⟨false, 0#2, 0#8⟩ (dataByte v) = .dataNoStatus v) ∧
  (∀ (s : State) (v : Data7), exec (.dataNoStatus v) s = .next s)

/-- R131: a data byte with a running status is buffered behind it, and `rs` is not written; with a running status of length 2 the
message is complete on this one byte and is dispatched. -/
def Obligations.RunningStatusDataByte : Prop :=
  (∀ (rs : Byte) (v : Data7), rs ≠ 0#8 → decodeByte ⟨false, 0#2, rs⟩ (dataByte v) = .dataRunningStatus v) ∧
  (∀ (s : State) (v : Data7), msgLen s.rs = some 3 →
    exec (.dataRunningStatus v) s = .next { s with buf := #v[s.rs, dataByte v, s.buf[2]], cnt := 2#2 }) ∧
  (∀ (s : State) (v : Data7), msgLen s.rs = some 2 →
    exec (.dataRunningStatus v) s =
      .next { dispatch ⟨s.rs, some v, none⟩ { s with buf := #v[s.rs, dataByte v, s.buf[2]], cnt := 2#2 } with cnt := 0#2 })

/-- R133: a data byte continuing a message is stored at `buf[cnt]`, inside the buffer, and counted; by the completion test (R134),
when the count reaches the length of the message it is dispatched in the same step, once, and the count is reset. The premise is the
parser's invariant, which every step keeps (`Obligations.StepKeepsInv`). -/
def Obligations.ContinuingDataByte : Prop :=
  (∀ (ctx : DecodeCtx) (v : Data7), ctx.sysex = false → ctx.cnt ≠ 0#2 → decodeByte ctx (dataByte v) = .dataContinue v) ∧
  ∀ (s : State) (v : Data7), ParserInv s → s.cnt ≠ 0#2 →
    ∃ (len : Nat) (hc : s.cnt.toNat < 3), msgLen s.buf[0] = some len ∧ s.cnt.toNat + 1 ≤ len ∧ len ≤ 3 ∧
      exec (.dataContinue v) s =
        if s.cnt.toNat + 1 = len then
          .next { dispatch (bufferedMsg (s.buf.set s.cnt.toNat (dataByte v)) len)
            { s with buf := s.buf.set s.cnt.toNat (dataByte v), cnt := s.cnt + 1#2 } with cnt := 0#2 }
        else .next { s with buf := s.buf.set s.cnt.toNat (dataByte v), cnt := s.cnt + 1#2 }

/-- Running status: data bytes alone act exactly as the same message with its status byte repeated (30_encoding.md, "Running
status"; 40_parser.md, section 7). -/
def Obligations.RunningStatusRepeatsStatus : Prop :=
  (∀ (s : State) (d e : Data7), isChannelVoice s.rs = true → msgLen s.rs = some 3 →
    execSeq [.dataRunningStatus d, .dataContinue e] s = execSeq [decodeStatus s.rs, .dataContinue d, .dataContinue e] s) ∧
  (∀ (s : State) (d : Data7), isChannelVoice s.rs = true → msgLen s.rs = some 2 →
    execSeq [.dataRunningStatus d] s = execSeq [decodeStatus s.rs, .dataContinue d] s)

/-! ### Messages -/

/-- R154: a NOTE_OFF message on channel `c` writes `2 · vel` to slot `128 · c + note` if `c` is a zone in mode 1, and no slot
otherwise; every other slot, table and register but the parser's own is as before.
The message starts from any state, one in which a message is in progress included, which it abandons (the spec's D4; `rs` by its D5). -/
def Obligations.NoteOffMessage : Prop :=
  ∀ (s : State) (c : Chan) (note vel : Data7), ∃ t : State,
    execSeq [.noteOff c, .dataContinue note, .dataContinue vel] s = .next t ∧
    (∀ a, t.fb.read a =
      if s.mode[c.toNat]? = some 0x01#8 ∧ a = 128 * c.toNat + note.toNat then BitVec.ofNat 8 (2 * vel.toNat) else s.fb.read a) ∧
    t.rs = 0x8#4 ++ c ∧ t.buf = #v[0x8#4 ++ c, dataByte note, dataByte vel] ∧ t.cnt = 0#2 ∧ t.sysex = s.sysex ∧
    SameTables s t ∧ SameRx s t ∧ SameTx s t ∧ SameEnv s t ∧ t.resetEvents = s.resetEvents

/-- R155: a NOTE_ON message on channel `c < 4` writes `2 · vel + 1` to slot `128 · c + note` whatever the zone's mode, velocity 0
included; on any other channel it writes no slot; every other slot, table and register but the parser's own is as before.
The message starts from any state, one in which a message is in progress included, which it abandons (the spec's D4; `rs` by its D5). -/
def Obligations.NoteOnMessage : Prop :=
  ∀ (s : State) (c : Chan) (note vel : Data7), ∃ t : State,
    execSeq [.noteOn c, .dataContinue note, .dataContinue vel] s = .next t ∧
    (∀ a, t.fb.read a =
      if c.toNat < 4 ∧ a = 128 * c.toNat + note.toNat then BitVec.ofNat 8 (2 * vel.toNat + 1) else s.fb.read a) ∧
    t.rs = 0x9#4 ++ c ∧ t.buf = #v[0x9#4 ++ c, dataByte note, dataByte vel] ∧ t.cnt = 0#2 ∧ t.sysex = s.sysex ∧
    SameTables s t ∧ SameRx s t ∧ SameTx s t ∧ SameEnv s t ∧ t.resetEvents = s.resetEvents

/-- R156: a POLY_PRESSURE message on channel `c` writes `2 · p` to slot `128 · c + note` if `c` is a zone in mode 2 or 3, and no slot
otherwise; every other slot, table and register but the parser's own is as before.
The message starts from any state, one in which a message is in progress included, which it abandons (the spec's D4; `rs` by its D5). -/
def Obligations.PolyPressureMessage : Prop :=
  ∀ (s : State) (c : Chan) (note p : Data7), ∃ t : State,
    execSeq [.polyPressure c, .dataContinue note, .dataContinue p] s = .next t ∧
    (∀ a, t.fb.read a =
      if (s.mode[c.toNat]? = some 0x02#8 ∨ s.mode[c.toNat]? = some 0x03#8) ∧ a = 128 * c.toNat + note.toNat
      then BitVec.ofNat 8 (2 * p.toNat) else s.fb.read a) ∧
    t.rs = 0xA#4 ++ c ∧ t.buf = #v[0xA#4 ++ c, dataByte note, dataByte p] ∧ t.cnt = 0#2 ∧ t.sysex = s.sysex ∧
    SameTables s t ∧ SameRx s t ∧ SameTx s t ∧ SameEnv s t ∧ t.resetEvents = s.resetEvents

/-- R158: a PROGRAM_CHANGE message on channel `c < 4` stores its data value as the zone's mode and recomputes the count; on any other
channel it writes neither; the frame buffer is not touched.
The message starts from any state, one in which a message is in progress included, which it abandons (the spec's D4; `rs` by its D5).
The new count joins the model-only set `Hacc` (20_memory.md, section 4; the spec's D10, log entry 6). -/
def Obligations.ProgramChangeMessage : Prop :=
  ∀ (s : State) (c : Chan) (m : Data7), ∃ t : State,
    execSeq [.programChange c, .dataContinue m] s = .next t ∧
    (∀ z : Nat, t.mode[z]? = if c.toNat < 4 ∧ z = c.toNat then some (dataByte m) else s.mode[z]?) ∧
    t.accCode = (if c.toNat < 4 then prio t.mode else s.accCode) ∧
    t.hacc = (if c.toNat < 4 then addValue (accWord t.accCode) s.hacc else s.hacc) ∧
    t.rs = 0xC#4 ++ c ∧ t.buf = #v[0xC#4 ++ c, dataByte m, s.buf[2]] ∧ t.cnt = 0#2 ∧ t.sysex = s.sysex ∧
    SameSlots s t ∧ SameRx s t ∧ SameTx s t ∧ SameEnv s t ∧ t.resetEvents = s.resetEvents

/-- R157: a CONTROL_CHANGE message has no mapping effect, on any channel; it leaves its status byte as running status, under which a
later pair of data bytes is a CONTROL_CHANGE too.
The message starts from any state, one in which a message is in progress included, which it abandons (the spec's D4; `rs` by its D5). -/
def Obligations.ControlChangeMessage : Prop :=
  ∀ (s : State) (c : Chan) (x v : Data7),
    execSeq [.controlChange c, .dataContinue x, .dataContinue v] s =
      .next { s with rs := 0xB#4 ++ c, buf := #v[0xB#4 ++ c, dataByte x, dataByte v], cnt := 0#2 } ∧
    (s.rs = 0xB#4 ++ c → execSeq [.dataRunningStatus x, .dataContinue v] s =
      .next { s with buf := #v[0xB#4 ++ c, dataByte x, dataByte v], cnt := 0#2 })

/-- R160: a CHANNEL_PRESSURE message has no mapping effect, on any channel, and under running status each single data byte is one
message.
The message starts from any state, one in which a message is in progress included, which it abandons (the spec's D4; `rs` by its D5). -/
def Obligations.ChannelPressureMessage : Prop :=
  ∀ (s : State) (c : Chan) (p q : Data7),
    execSeq [.channelPressure c, .dataContinue p] s =
      .next { s with rs := 0xD#4 ++ c, buf := #v[0xD#4 ++ c, dataByte p, s.buf[2]], cnt := 0#2 } ∧
    (s.rs = 0xD#4 ++ c →
      exec (.dataRunningStatus q) s = .next { s with buf := #v[0xD#4 ++ c, dataByte q, s.buf[2]], cnt := 0#2 })

/-- R161: a PITCH_BEND message has no mapping effect, on any channel.
The message starts from any state, one in which a message is in progress included, which it abandons (the spec's D4; `rs` by its D5). -/
def Obligations.PitchBendMessage : Prop :=
  ∀ (s : State) (c : Chan) (lo hi : Data7),
    execSeq [.pitchBend c, .dataContinue lo, .dataContinue hi] s =
      .next { s with rs := 0xE#4 ++ c, buf := #v[0xE#4 ++ c, dataByte lo, dataByte hi], cnt := 0#2 }

/-- R159: the priority code is that of the highest zone with a nonzero mode, not a sum, and the Active Channel Count is 128 times
it. -/
def Obligations.PriorityScan : Prop :=
  ∀ m0 m1 m2 m3 : Byte,
    (prio #v[m0, m1, m2, m3]).toNat =
      (if m3 ≠ 0#8 then 4 else if m2 ≠ 0#8 then 3 else if m1 ≠ 0#8 then 2 else if m0 ≠ 0#8 then 1 else 0) ∧
    (accCount (prio #v[m0, m1, m2, m3])).toNat = 128 * (prio #v[m0, m1, m2, m3]).toNat

/-- R152 and R153: the slot index is `128 · z + n`, within 0-511; the slot value is `2 · v`, plus 1 exactly for Note On. -/
def Obligations.SlotIndexAndValue : Prop :=
  (∀ (z : Zone) (n : Data7), (slotIndex z n).toNat = 128 * z.toNat + n.toNat ∧ (slotIndex z n).toNat ≤ 511 ∧ slotIndex z n = z ++ n) ∧
  (∀ v : Data7, (slotValue v false).toNat = 2 * v.toNat ∧ (slotValue v true).toNat = 2 * v.toNat + 1 ∧
    slotValue v false = v ++ 0#1 ∧ slotValue v true = v ++ 1#1)

/-! ### Memory and ownership -/

/-- A read through the read port gives the last byte written to its slot and, at 512 or above, the fault (20_memory.md, "Ports";
the fault is the spec's D27). -/
def Obligations.SlotReadAfterWrite : Prop :=
  ∀ (s : State) (i : SlotIx) (v : Byte) (j : Nat),
    memRead j (memWrite i v s) =
      if 512 ≤ j then .error (.slotIndexOutOfRange j) else if j = i.toNat then .ok v else memRead j s

/-- Who writes the frame buffer: a slot changes in a step only when the Parser consumes a System Reset, or the last data byte of a
3-byte message whose channel is a zone, and then only the slot the message addresses (20_memory.md, "Write port"; 41_mapper.md,
"Interface"). -/
def Obligations.OnlyParserWritesSlots : Prop :=
  ∀ (s t : State) (a : Nat), step s = .next t → t.fb.read a ≠ s.fb.read a →
    nextMove s = .parser ∧ s.rxFull = true ∧
    (s.rxHold = 0xFF#8 ∨
      (isData s.rxHold = true ∧ s.sysex = false ∧ s.cnt = 2#2 ∧ msgLen s.buf[0] = some 3 ∧
        ∃ z : Zone, zoneOf (statusChan s.buf[0]) = some z ∧ a = (slotIndex z (dataValue s.buf[1])).toNat))

/-- Who writes the Zone Mode Table and the count: only a Parser step that consumes a System Reset, which clears them, or the data byte
that completes a PROGRAM_CHANGE, explicit or under running status, on a channel that is a zone; it stores the byte as that zone's mode
and recomputes the count (10_state.md, "Shared tables"). -/
def Obligations.OnlyProgramChangeWritesTables : Prop :=
  ∀ s t : State, step s = .next t → (t.mode ≠ s.mode ∨ t.accCode ≠ s.accCode) →
    nextMove s = .parser ∧ s.rxFull = true ∧
    ((s.rxHold = 0xFF#8 ∧ t.mode = #v[0#8, 0#8, 0#8, 0#8] ∧ t.accCode = 0#3) ∨
      (isData s.rxHold = true ∧ s.sysex = false ∧ (s.cnt = 0#2 ∨ s.cnt = 1#2) ∧
        statusType (if s.cnt = 0#2 then s.rs else s.buf[0]) = 0xC#4 ∧
        ∃ z : Zone, zoneOf (statusChan (if s.cnt = 0#2 then s.rs else s.buf[0])) = some z ∧
          t.mode = s.mode.set z.toNat s.rxHold z.isLt ∧ t.accCode = prio t.mode))

/-- Who writes the running status: only a Parser step that consumes a System Reset, which clears it, or a Channel Voice status byte
outside SysEx, which is stored (10_state.md, "Parser state"; the spec's D5). -/
def Obligations.OnlyChannelVoiceWritesRunningStatus : Prop :=
  ∀ s t : State, step s = .next t → t.rs ≠ s.rs →
    nextMove s = .parser ∧ s.rxFull = true ∧
    ((s.rxHold = 0xFF#8 ∧ t.rs = 0#8) ∨ (isChannelVoice s.rxHold = true ∧ s.sysex = false ∧ t.rs = s.rxHold))

/-- Each piece of state has one writer: no instruction writes the Transmitter's state, and no Transmitter step writes the receive
register, the parser, the tables or the frame buffer; `Hacc`, the model-only set of 20_memory.md, is restarted by it
(20_memory.md, "Ownership"). -/
def Obligations.OneWriterPerRegister : Prop :=
  (∀ (i : Instr) (s : State), ∃ t, exec i s = .next t ∧ SameTx s t ∧ SameRx s t ∧ SameEnv s t) ∧
  (∀ s t : State, txStep s = .next t →
    SameRx s t ∧ SameParser s t ∧ t.mode = s.mode ∧ t.accCode = s.accCode ∧ t.hacc = [accWord s.accCode] ∧ t.fb = s.fb ∧
    SameEnv s t ∧ t.resetEvents = s.resetEvents)

/-- The frame of the instructions that map nothing: a status byte, a SysEx byte, a Real-Time byte or a discarded data byte leaves
every slot, the tables and the event count as they were (20_memory.md, "Write port"; 40_parser.md, sections 3 to 7). -/
def Obligations.NonDispatchingInstrsFrame : Prop :=
  ∀ (i : Instr) (s t : State), exec i s = .next t → i ≠ .systemReset →
    (∀ v, i ≠ .dataRunningStatus v) → (∀ v, i ≠ .dataContinue v) →
    SameSlots s t ∧ SameTables s t ∧ t.resetEvents = s.resetEvents

/-- The Transmitter reads, of what the Parser owns, only the count and the frame buffer (20_memory.md, "Ownership"; with
`ACC_TEAR = false`, the spec's D10): states that agree on its own registers, the configuration, the count and every slot take
agreeing Transmitter steps. -/
def Obligations.TransmitterReadsCountAndSlots : Prop :=
  ∀ s t : State, SameTx s t → t.cfg = s.cfg → s.cfg.accTear = false → t.accCode = s.accCode → SameSlots s t →
    (∃ s' t', txStep s = .next s' ∧ txStep t = .next t' ∧ SameTx s' t') ∨ (∃ f, txStep s = .fault f ∧ txStep t = .fault f)

/-- The Parser reads nothing of the Transmitter (20_memory.md, "Ownership"; 60_exceptions.md, "Timers and counters"): states that
agree on the parser, the tables and every slot agree on them after any instruction. -/
def Obligations.ParserReadsNoTransmitterState : Prop :=
  ∀ (i : Instr) (s t : State), SameParser s t → SameTables s t → SameSlots s t →
    ∃ s' t', exec i s = .next s' ∧ exec i t = .next t' ∧ SameParser s' t' ∧ SameTables s' t' ∧ SameSlots s' t'

/-- The reset event is signalled once by every Parser step that consumes 0xFF and by no other step (10_state.md, section 7; the count
of events is the model's field, log entry 8). -/
def Obligations.ResetEventOncePerResetByte : Prop :=
  ∀ s t : State, step s = .next t →
    t.resetEvents = s.resetEvents + if nextMove s = .parser ∧ s.rxFull = true ∧ s.rxHold = 0xFF#8 then 1 else 0

/-! ### The Transmitter -/

/-- The start of a cycle, whatever count is read (`readCount`; with `ACC_TEAR = false` it is the count itself): the count is latched and
the indicators follow it; a count of 0 gives one cell at mark and stays; any other gives the first cell of the BREAK
(42_transmitter.md, section 2; D10, D11, D16 and D21 of the spec). -/
def Obligations.CycleStartReadsCount : Prop :=
  ∀ s : State, s.cfg.legal = true → s.ph = .cstart → ∃ t : State, txStep s = .next t ∧
    t.latched = readCount s ∧ (s.cfg.accTear = false → t.latched.toNat = 128 * s.accCode.toNat) ∧
    (∀ (g : Nat) (hg : g < 4), t.indGroup[g] = decide (128 * g < t.latched.toNat)) ∧ t.sym = s.sym ∧ t.sh = s.sh ∧
    (t.latched = 0#10 → t.line = true ∧ t.ph = .cstart ∧ cellsDone t = cellsDone s) ∧
    (t.latched ≠ 0#10 → t.line = false ∧ t.ph = .brk ∧ cellsDone t = 1)

/-- A torn count (20_memory.md, section 4; the spec's D10): with `ACC_TEAR = true` a cycle start latches a count whose high byte is
from one value of `Hacc` and whose low byte is from another, one of 0, 128, 256, 384, 512 and 640; the indicators follow it, and a draw
of 0 gives an idle cell at mark (D16, D21). Which values are drawn is a free choice (log entry 6). -/
def Obligations.TornCountComesFromHacc : Prop :=
  ∀ s : State, s.cfg.accTear = true → s.cfg.legal = true → s.ph = .cstart → TableInv s → ∃ t : State, txStep s = .next t ∧
    (∃ va ∈ s.hacc, ∃ vb ∈ s.hacc, t.latched.toNat = 256 * (va.toNat / 256) + vb.toNat % 256) ∧
    t.latched.toNat ∈ [0, 128, 256, 384, 512, 640] ∧
    (∀ (g : Nat) (hg : g < 4), t.indGroup[g] = decide (128 * g < t.latched.toNat)) ∧
    (t.latched = 0#10 → t.line = true ∧ t.ph = .cstart) ∧ (t.latched ≠ 0#10 → t.line = false ∧ t.ph = .brk)

/-- The latched count and the indicators are written at cycle starts only: a Transmitter step in any other phase leaves them as they
were (10_state.md, sections 6 and 7; 42_transmitter.md, section 2; D11 and D21 of the spec). -/
def Obligations.OnlyCycleStartWritesIndicators : Prop :=
  ∀ s t : State, s.ph ≠ .cstart → txStep s = .next t → t.indGroup = s.indGroup ∧ t.latched = s.latched

/-- The start bit latches the byte: the start code for symbol 0, else slot `s - 1` as it stands at this step; an index of 512 or more
faults (42_transmitter.md, "Start bit and latch", the spec's D17; 20_memory.md, "Out-of-range read", D27). -/
def Obligations.StartBitLatchesLiveByte : Prop :=
  ∀ s : State, s.ph = .frm → cellsDone s = 0 →
    (s.sym = 0#10 → ∃ t, txStep s = .next t ∧ t.sh = 0x00#8 ∧ t.line = false ∧ cellsDone t = 1 ∧ t.ph = .frm ∧ t.sym = s.sym) ∧
    (1 ≤ s.sym.toNat → s.sym.toNat ≤ 512 →
      ∃ t, txStep s = .next t ∧ t.sh = s.fb.read (s.sym.toNat - 1) ∧ t.line = false ∧ cellsDone t = 1 ∧ t.ph = .frm ∧ t.sym = s.sym) ∧
    (513 ≤ s.sym.toNat → txStep s = .fault (.slotIndexOutOfRange (s.sym.toNat - 1)))

/-- A framed byte is 11 cells: a start bit at 0, the eight data bits least significant first, two stop bits at 1 (30_encoding.md,
"Framed byte": the levels and the order are the spec's D13, from general knowledge); after it the last slot ends the cycle, any other
symbol is followed by the next (42_transmitter.md, "Slot sequencing"). -/
def Obligations.FramedByteIsElevenCells : Prop :=
  ∀ (s : State) (b : Byte), s.ph = .frm → cellsDone s = 0 → symbolByte s = .ok b → ∃ t : State,
    txRun 11 s = some (framedByte b, t) ∧ t.sh = b ∧ cellsDone t = 0 ∧ t.latched = s.latched ∧
    (s.sym = s.latched → t.sym = s.sym ∧ t.ph = if s.cfg.mbbBits = 0 then .cstart else .mbb) ∧
    (s.sym ≠ s.latched → t.sym = s.sym + 1#10 ∧ t.ph = if s.cfg.mtbsBits = 0 then .frm else .mtbs)

/-- One Transmitter step, whatever steps fall before and after it (42_transmitter.md, sections 3 and 4). Its cell is at the level of
its phase; a data bit comes from the latched byte `sh`, so that no later write to the slot reaches it (the spec's D17; the levels and
the bit order are its D13), and `sh` is written at a start bit only. In a phase that goes on only the cell counter moves; after its last
cell the counter is 0 and the phase and the symbol are those that follow (D14, D15, D18). -/
def Obligations.CellLevelAndNextPhase : Prop :=
  ∀ s t : State, txStep s = .next t →
    (s.ph = .cstart → t.line = decide (readCount s = 0#10)) ∧ (s.ph = .brk → t.line = false) ∧
    (s.ph = .mab ∨ s.ph = .mtbs ∨ s.ph = .mbb → t.line = true) ∧
    (s.ph = .frm → cellsDone s = 0 → t.line = false) ∧
    (s.ph = .frm → 1 ≤ cellsDone s → cellsDone s ≤ 8 → t.line = s.sh.getLsbD (cellsDone s - 1)) ∧
    (s.ph = .frm → 9 ≤ cellsDone s → t.line = true) ∧
    (¬(s.ph = .frm ∧ cellsDone s = 0) → t.sh = s.sh) ∧
    (s.ph ≠ .cstart → cellsDone s + 1 ≠ phaseLength s.cfg s.ph → t.ph = s.ph ∧ cellsDone t = cellsDone s + 1 ∧ t.sym = s.sym) ∧
    (s.ph ≠ .cstart → cellsDone s + 1 = phaseLength s.cfg s.ph → cellsDone t = 0 ∧
      (s.ph = .brk → t.ph = .mab ∧ t.sym = s.sym) ∧ (s.ph = .mab → t.ph = .frm ∧ t.sym = 0#10) ∧
      (s.ph = .mtbs → t.ph = .frm ∧ t.sym = s.sym) ∧ (s.ph = .mbb → t.ph = .cstart ∧ t.sym = s.sym) ∧
      (s.ph = .frm → s.sym = s.latched → t.sym = s.sym ∧ t.ph = if s.cfg.mbbBits = 0 then .cstart else .mbb) ∧
      (s.ph = .frm → s.sym ≠ s.latched → t.sym = s.sym + 1#10 ∧ t.ph = if s.cfg.mtbsBits = 0 then .frm else .mtbs))

/-- R185 and R186: a cycle start with a nonzero count emits `BREAK_BITS` cells at level 0, its own cell the first, then `MAB_BITS`
cells at level 1, and then frames the start code. -/
def Obligations.BreakThenMarkAfterBreak : Prop :=
  ∀ s : State, s.cfg.legal = true → s.ph = .cstart → readCount s ≠ 0#10 → ∃ t : State,
    txRun (s.cfg.breakBits + s.cfg.mabBits) s = some (List.replicate s.cfg.breakBits false ++ List.replicate s.cfg.mabBits true, t) ∧
    t.ph = .frm ∧ t.sym = 0#10 ∧ cellsDone t = 0 ∧ t.latched = readCount s

/-- One whole cycle, with no other step between, for every nonzero count `N` of at most 512 that its start reads, torn or not (for the
torn 640 see `Obligations.StartBitLatchesLiveByte`): its cells are `Cycle(N)` with the slots of the frame buffer in order, it lasts
`C(N)` steps and ends at the next cycle start (30_encoding.md, section 4; 42_transmitter.md, "Cycle length" and "Symbol-level view",
which the spec marks as derived; D10, D11, D13, D15 and D18; a torn count is drawn by log entry 6). -/
def Obligations.CycleWaveform : Prop :=
  ∀ (s : State) (n : Nat), s.cfg.legal = true → s.ph = .cstart → n = (readCount s).toNat → n ≠ 0 → n ≤ 512 → ∃ t : State,
    txRun (cycleLength s.cfg n) s = some (cycleCells s.cfg (firstSlots s.fb n), t) ∧
    t.ph = .cstart ∧ cellsDone t = 0 ∧ t.sym.toNat = n ∧ t.latched.toNat = n

/-- The place of a slot in its cycle (42_transmitter.md, "Cycle length", derived; D14, D15 and D18 of the spec): with no other step
between, the start bit of slot `j` is the Transmitter step at offset `slotOffset j`, counted from 0 at the cycle start, and it latches
the slot (D17). -/
def Obligations.SlotStartBitOffset : Prop :=
  ∀ (s : State) (j : Nat), s.cfg.legal = true → s.ph = .cstart → j < (readCount s).toNat → j < 512 → ∃ (cells : List Bool) (u v : State),
    txRun (slotOffset s.cfg j) s = some (cells, u) ∧ u.ph = .frm ∧ cellsDone u = 0 ∧ u.sym.toNat = j + 1 ∧
    txStep u = .next v ∧ v.line = false ∧ v.sh = s.fb.read j

/-- The length of a cycle whatever steps fall between its cells (42_transmitter.md, "Cycle length", derived): a cycle start with a
nonzero count leaves `C(N) - 1` cells to emit, every later Transmitter step emits one of them, and the next cycle starts exactly when
none is left. -/
def Obligations.CycleLengthCountsDown : Prop :=
  ∀ s t : State, s.cfg.legal = true → TxInv s → txStep s = .next t →
    (s.ph ≠ .cstart → cellsLeft t + 1 = cellsLeft s) ∧
    (s.ph = .cstart → t.latched ≠ 0#10 → cellsLeft t + 1 = cycleLength s.cfg t.latched.toNat) ∧
    (cellsLeft t = 0 ↔ t.ph = .cstart)

/-- No cancellation (42_transmitter.md, "No cancellation"): a step that is not the Transmitter's leaves its registers and the cells
left in its cycle as they were. -/
def Obligations.InputNeverCancelsCycle : Prop :=
  ∀ s t : State, step s = .next t → nextMove s ≠ .transmitter → SameTx s t ∧ cellsLeft t = cellsLeft s

/-! ### Invariants and safety -/

/-- The invariant holds at power-on, for every configuration. -/
def Obligations.PowerOnMeetsInv : Prop := ∀ c : Config, Inv (State.powerOn c)

/-- Every step keeps the invariant: the parser's registers (10_state.md, sections 3 and 8), the legal values of the tables and the count
as the priority of the modes, the canonical form of the frame buffer, the Transmitter's ranges. -/
def Obligations.StepKeepsInv : Prop := ∀ s t : State, Inv s → step s = .next t → Inv t

/-- With a legal configuration and `ACC_TEAR = false` no step ever faults (20_memory.md, "Out-of-range read"; 60_exceptions.md,
"Model faults"). -/
def Obligations.NoFaultWithoutTear : Prop :=
  ∀ s : State, Inv s → s.cfg.legal = true → s.cfg.accTear = false → ∃ t, step s = .next t

/-- With a legal configuration the only fault is a slot read at index 512 in a cycle that latched the torn count 640 (20_memory.md,
section 4, the spec's D10 and D27). -/
def Obligations.OnlyFaultIsSlot512 : Prop :=
  ∀ (s : State) (f : Fault), Inv s → s.cfg.legal = true → step s = .fault f →
    f = .slotIndexOutOfRange 512 ∧ s.cfg.accTear = true ∧ s.latched = 640#10

/-- No input byte faults or is refused (60_exceptions.md, "No exceptions"; 30_encoding.md, "Reserved and undefined encodings"): in a
legal configuration a Parser step on a held byte always answers a next state, with the byte consumed. -/
def Obligations.EveryByteIsConsumed : Prop :=
  ∀ s : State, s.cfg.legal = true → nextMove s = .parser → s.rxFull = true → ∃ t, step s = .next t ∧ t.rxFull = false

/-- R30: the count stays 0 or a multiple of 128, at most 512: it is 0 at power-on and every step keeps it legal. -/
def Obligations.CountStaysMultipleOf128 : Prop :=
  State.reset.accCode = 0#3 ∧
  (∀ c : BitVec 3, c.toNat ≤ 4 → (accCount c).toNat = 128 * c.toNat ∧ (accCount c).toNat ≤ 512) ∧
  (∀ s t : State, s.accCode.toNat ≤ 4 → step s = .next t → t.accCode.toNat ≤ 4)

/-- The 16 bits the spec gives `k` hold the whole count of cells whenever the configured phase lengths are at most 65535, and the
model's own overflow field is then 0 (10_state.md, section 6, the spec's D14; log entry 7). -/
def Obligations.CellCounterFits16Bits : Prop :=
  ∀ s : State, Inv s → s.cfg.breakBits ≤ 65535 → s.cfg.mabBits ≤ 65535 → s.cfg.mtbsBits ≤ 65535 → s.cfg.mbbBits ≤ 65535 →
    s.kOver = 0 ∧ cellsDone s = s.k.toNat
end

