-- ==== Sys2Proof/Laws/Memory.lean ====
section
/-! SUPPORT. The frame buffer as a map from slots to bytes: what a read gives after a write, and that every operation keeps the
canonical form (spec/20_memory.md R52, R53, R58, R59). -/

namespace Sys2Proof.Machine

theorem Memory.read_eq_zero_of_not_listed {m : Memory} {a : Nat} (h : ∀ c ∈ m, c.1 ≠ a) : Memory.read m a = 0x00#8 := by
  induction m with
  | nil => rfl
  | cons c m ih =>
    simp only [Memory.read, if_neg (h c (by simp))]
    exact ih fun d hd => h d (by simp [hd])

theorem Memory.read_filter_other (m : Memory) {a b : Nat} (h : b ≠ a) :
    Memory.read (m.filter fun c => decide (c.1 ≠ a)) b = Memory.read m b := by
  induction m with
  | nil => rfl
  | cons c m ih =>
    by_cases hc : c.1 = a
    · have hb : c.1 ≠ b := fun e => h (e ▸ hc)
      simpa [List.filter_cons, hc, Memory.read, hb, hc ▸ hb] using ih
    · simp only [List.filter_cons, decide_not, hc, decide_false, Bool.not_false, if_true, Memory.read]
      simpa using by simpa using congrArg (fun x => if c.1 = b then c.2 else x) ih

theorem Memory.read_insert (m : Memory) (a : Nat) (v : Byte) (b : Nat) (h : ∀ c ∈ m, c.1 ≠ a) :
    Memory.read (Memory.insert m a v) b = if b = a then v else Memory.read m b := by
  induction m with
  | nil => simp [Memory.insert, Memory.read, eq_comm]
  | cons c m ih =>
    have hc : c.1 ≠ a := h c (by simp)
    have hm : ∀ d ∈ m, d.1 ≠ a := fun d hd => h d (by simp [hd])
    by_cases hlt : a < c.1
    · simp [Memory.insert, hlt, Memory.read, eq_comm]
    · simp only [Memory.insert, hlt, if_false, Memory.read, ih hm]
      by_cases hb : b = a
      · simp [hb, hc]
      · simp [hb]

/-- A read after a write gives the byte written at that slot and the old byte at every other (R52, R53). -/
theorem Memory.read_write (m : Memory) (a : Nat) (v : Byte) (b : Nat) :
    Memory.read (Memory.write m a v) b = if b = a then v else Memory.read m b := by
  have hf : ∀ c ∈ m.filter (fun c => decide (c.1 ≠ a)), c.1 ≠ a := by simp
  unfold Memory.write
  by_cases hv : v = 0x00#8
  · by_cases hb : b = a
    · simp only [hv, if_true, hb]
      exact Memory.read_eq_zero_of_not_listed hf
    · simp only [hv, if_true, hb, if_false]
      exact Memory.read_filter_other m hb
  · simp only [hv, if_false, Memory.read_insert _ _ _ _ hf]
    by_cases hb : b = a
    · simp [hb]
    · simp only [hb, if_false]
      exact Memory.read_filter_other m hb

@[simp] theorem Memory.read_write_same (m : Memory) (a : Nat) (v : Byte) : Memory.read (Memory.write m a v) a = v := by
  simp [Memory.read_write]

theorem Memory.read_write_other (m : Memory) {a b : Nat} (v : Byte) (h : b ≠ a) :
    Memory.read (Memory.write m a v) b = Memory.read m b := by
  simp [Memory.read_write, h]

@[simp] theorem Memory.read_clear (a : Nat) : Memory.read Memory.clear a = 0x00#8 := rfl

@[simp] theorem Memory.read_nil (a : Nat) : Memory.read [] a = 0x00#8 := rfl

theorem Memory.mem_insert {m : Memory} {a : Nat} {v : Byte} {c : Host.Cell} :
    c ∈ Memory.insert m a v ↔ c = (a, v) ∨ c ∈ m := by
  induction m with
  | nil => simp [Memory.insert]
  | cons d m ih =>
    by_cases h : a < d.1
    · simp [Memory.insert, h]
    · simp only [Memory.insert, h, if_false, List.mem_cons, ih]
      tauto

theorem Memory.insert_pairwise {m : Memory} {a : Nat} {v : Byte} (hm : m.Pairwise (fun c d => c.1 < d.1))
    (h : ∀ c ∈ m, c.1 ≠ a) : (Memory.insert m a v).Pairwise (fun c d => c.1 < d.1) := by
  induction m with
  | nil => simp [Memory.insert]
  | cons c m ih =>
    obtain ⟨hc, hm'⟩ := List.pairwise_cons.mp hm
    have hca : c.1 ≠ a := h c (by simp)
    by_cases hlt : a < c.1
    · rw [Memory.insert, if_pos hlt]
      refine List.pairwise_cons.mpr ⟨fun d hd => ?_, hm⟩
      rcases List.mem_cons.mp hd with rfl | hd
      · exact hlt
      · exact hlt.trans (hc d hd)
    · simp only [Memory.insert, hlt, if_false, List.pairwise_cons]
      refine ⟨fun d hd => ?_, ih hm' fun d hd => h d (by simp [hd])⟩
      rcases Memory.mem_insert.mp hd with rfl | hd
      · show c.1 < a; omega
      · exact hc d hd

/-- A write inside the frame buffer keeps the canonical form. -/
theorem Memory.write_wf {m : Memory} {a : Nat} {v : Byte} (hm : Memory.wf m) (ha : a < Config.fbSlots) :
    Memory.wf (Memory.write m a v) := by
  have hp : (m.filter fun c => decide (c.1 ≠ a)).Pairwise (fun c d => c.1 < d.1) := hm.1.filter _
  have hq : ∀ c ∈ m.filter (fun c => decide (c.1 ≠ a)), c.1 < Config.fbSlots ∧ c.2 ≠ 0x00#8 :=
    fun c hc => hm.2 c (List.mem_of_mem_filter hc)
  unfold Memory.write
  by_cases hv : v = 0x00#8
  · simp only [hv, if_true]
    exact ⟨hp, hq⟩
  · simp only [hv, if_false]
    refine ⟨Memory.insert_pairwise hp (by simp), fun c hc => ?_⟩
    rcases Memory.mem_insert.mp hc with rfl | hc
    · exact ⟨ha, hv⟩
    · exact hq c hc

theorem Memory.clear_wf : Memory.wf Memory.clear := by simp [Memory.wf, Memory.clear]

/-- The write port keeps the canonical form: a 9-bit index is always inside the frame buffer (R65). -/
theorem memWrite_wf {s : State} (i : SlotIx) (v : Byte) (h : s.fb.wf) : (memWrite i v s).fb.wf :=
  Memory.write_wf h i.isLt

/-- A read inside the frame buffer (R53). -/
theorem memRead_of_lt {i : Nat} {s : State} (h : i < 512) : memRead i s = .ok (s.fb.read i) := if_pos h

/-- A read outside it (R69). -/
theorem memRead_of_ge {i : Nat} {s : State} (h : 512 ≤ i) : memRead i s = .error (.slotIndexOutOfRange i) :=
  if_neg (Nat.not_lt.mpr h)

theorem Memory.reset_wf : State.reset.fb.wf := Memory.clear_wf

/-- A frame buffer in canonical form that reads 0x00 everywhere lists nothing. -/
theorem Memory.eq_nil_of_read_zero {m : Memory} (hm : Memory.wf m) (h : ∀ a < Config.fbSlots, Memory.read m a = 0x00#8) : m = [] := by
  cases m with
  | nil => rfl
  | cons c m =>
    have h1 := hm.2 c (by simp)
    exact absurd (by simpa [Memory.read] using h c.1 h1.1) h1.2

/-- The bulk clear is what 512 writes of 0x00 leave (R58, R111). -/
theorem Memory.clear_eq_writes {m : Memory} (hm : Memory.wf m) :
    (List.range Config.fbSlots).foldl (fun f i => Memory.write f i 0x00#8) m = Memory.clear := by
  have key : ∀ n ≤ Config.fbSlots, ∀ f, f = (List.range n).foldl (fun f i => Memory.write f i 0x00#8) m →
      Memory.wf f ∧ ∀ a < n, Memory.read f a = 0x00#8 := by
    intro n
    induction n with
    | zero => intro _ f hf; simp at hf; exact ⟨hf ▸ hm, by simp⟩
    | succ n ih =>
      intro hn f hf
      obtain ⟨hw, hr⟩ := ih (by omega) _ rfl
      rw [List.range_succ, List.foldl_append, List.foldl_cons, List.foldl_nil] at hf
      subst hf
      refine ⟨Memory.write_wf hw (by omega), fun a ha => ?_⟩
      by_cases e : a = n
      · simp [e]
      · rw [Memory.read_write_other _ _ e]
        exact hr a (by omega)
  obtain ⟨hw, hr⟩ := key _ le_rfl _ rfl
  exact Memory.eq_nil_of_read_zero hw hr

end Sys2Proof.Machine
end

