-- ==== Sys2Proof/Laws/Operands.lean ====
section
/-! SUPPORT. The operand forms in numbers, and the message fields read back from the buffer (spec/30_encoding.md R82, R84;
spec/41_mapper.md R151, R152, R153, R164). -/

namespace Sys2Proof.Machine

theorem slotIndex_toNat (z : Zone) (note : Data7) : (slotIndex z note).toNat = 128 * z.toNat + note.toNat := by
  have hn := note.isLt
  simp only [slotIndex, BitVec.toNat_append]
  rw [Nat.shiftLeft_eq, ← Nat.shiftLeft_eq, ← Nat.shiftLeft_add_eq_or_of_lt hn, Nat.shiftLeft_eq]
  omega

theorem slotValue_toNat (v : Data7) (on : Bool) : (slotValue v on).toNat = 2 * v.toNat + on.toNat := by
  have hb : on.toNat < 2 ^ 1 := by cases on <;> decide
  simp only [slotValue, BitVec.toNat_append, BitVec.toNat_ofBool]
  rw [← Nat.shiftLeft_add_eq_or_of_lt hb, Nat.shiftLeft_eq]
  omega

@[simp] theorem dataValue_dataByte (v : Data7) : dataValue (dataByte v) = v := by
  revert v; decide +kernel

@[simp] theorem isData_dataByte (v : Data7) : isData (dataByte v) = true := by
  revert v; decide +kernel

@[simp] theorem statusType_append (t : BitVec 4) (c : Chan) : statusType (t ++ c) = t := by
  revert t c; decide +kernel

@[simp] theorem statusChan_append (t : BitVec 4) (c : Chan) : statusChan (t ++ c) = c := by
  revert t c; decide +kernel

theorem accCount_toNat (c : BitVec 3) : (accCount c).toNat = 128 * c.toNat := by
  revert c; decide

theorem accWord_toNat (c : BitVec 3) : (accWord c).toNat = 128 * c.toNat := by
  revert c; decide

theorem accCount_eq_zero {c : BitVec 3} : accCount c = 0#10 ↔ c = 0#3 := by
  revert c; decide

/-- The zone filter in numbers: a channel below 4 is the zone of the same number (R151). -/
theorem zoneOf_eq_some {c : Chan} {z : Zone} : zoneOf c = some z ↔ c.toNat = z.toNat := by
  revert c z; decide +kernel

theorem zoneOf_eq_none {c : Chan} : zoneOf c = none ↔ 4 ≤ c.toNat := by
  revert c; decide +kernel

/-- The length of a Channel Voice message is 2 or 3 (R84, R123). -/
theorem msgLen_channelVoice {b : Byte} (h : isChannelVoice b = true) : msgLen b = some 2 ∨ msgLen b = some 3 := by
  revert b; decide +kernel

/-- A length is at most 3 (R84). -/
theorem msgLen_le {b : Byte} {n : Nat} (h : msgLen b = some n) : n ≤ 3 := by
  have : ∀ b : Byte, (msgLen b).all (fun n => decide (n ≤ 3)) = true := by decide +kernel
  simpa [h] using this b

/-- The priority scan gives a code of the table, 0 to 4 (R159). -/
theorem prio_le (mode : Vector Byte 4) : (prio mode).toNat ≤ 4 := by
  unfold prio; split_ifs <;> decide

end Sys2Proof.Machine
end

