-- ==== Sys2Proof/Laws/State.lean ====
section
/-! SUPPORT. What each register update leaves in each field of the state, one lemma per field and update, so that no proof unfolds
a record update. -/

namespace Sys2Proof.Machine

variable (s : State)

/-! ### `memWrite`: the write port -/

@[simp] theorem memWrite_rxHold (i : SlotIx) (v : Byte) : (memWrite i v s).rxHold = s.rxHold := rfl
@[simp] theorem memWrite_rxFull (i : SlotIx) (v : Byte) : (memWrite i v s).rxFull = s.rxFull := rfl
@[simp] theorem memWrite_rs (i : SlotIx) (v : Byte) : (memWrite i v s).rs = s.rs := rfl
@[simp] theorem memWrite_buf (i : SlotIx) (v : Byte) : (memWrite i v s).buf = s.buf := rfl
@[simp] theorem memWrite_cnt (i : SlotIx) (v : Byte) : (memWrite i v s).cnt = s.cnt := rfl
@[simp] theorem memWrite_sysex (i : SlotIx) (v : Byte) : (memWrite i v s).sysex = s.sysex := rfl
@[simp] theorem memWrite_mode (i : SlotIx) (v : Byte) : (memWrite i v s).mode = s.mode := rfl
@[simp] theorem memWrite_accCode (i : SlotIx) (v : Byte) : (memWrite i v s).accCode = s.accCode := rfl
@[simp] theorem memWrite_hacc (i : SlotIx) (v : Byte) : (memWrite i v s).hacc = s.hacc := rfl
@[simp] theorem memWrite_fb (i : SlotIx) (v : Byte) : (memWrite i v s).fb = s.fb.write i.toNat v := rfl
@[simp] theorem memWrite_ph (i : SlotIx) (v : Byte) : (memWrite i v s).ph = s.ph := rfl
@[simp] theorem memWrite_k (i : SlotIx) (v : Byte) : (memWrite i v s).k = s.k := rfl
@[simp] theorem memWrite_kOver (i : SlotIx) (v : Byte) : (memWrite i v s).kOver = s.kOver := rfl
@[simp] theorem memWrite_sym (i : SlotIx) (v : Byte) : (memWrite i v s).sym = s.sym := rfl
@[simp] theorem memWrite_latched (i : SlotIx) (v : Byte) : (memWrite i v s).latched = s.latched := rfl
@[simp] theorem memWrite_sh (i : SlotIx) (v : Byte) : (memWrite i v s).sh = s.sh := rfl
@[simp] theorem memWrite_line (i : SlotIx) (v : Byte) : (memWrite i v s).line = s.line := rfl
@[simp] theorem memWrite_indGroup (i : SlotIx) (v : Byte) : (memWrite i v s).indGroup = s.indGroup := rfl
@[simp] theorem memWrite_resetEvents (i : SlotIx) (v : Byte) : (memWrite i v s).resetEvents = s.resetEvents := rfl
@[simp] theorem memWrite_cfg (i : SlotIx) (v : Byte) : (memWrite i v s).cfg = s.cfg := rfl
@[simp] theorem memWrite_agenda (i : SlotIx) (v : Byte) : (memWrite i v s).agenda = s.agenda := rfl
@[simp] theorem memWrite_tick (i : SlotIx) (v : Byte) : (memWrite i v s).tick = s.tick := rfl

/-! ### `setZoneMode`: a write of the Zone Mode Table -/

@[simp] theorem setZoneMode_rxHold (z : Zone) (m : Byte) : (setZoneMode z m s).rxHold = s.rxHold := rfl
@[simp] theorem setZoneMode_rxFull (z : Zone) (m : Byte) : (setZoneMode z m s).rxFull = s.rxFull := rfl
@[simp] theorem setZoneMode_rs (z : Zone) (m : Byte) : (setZoneMode z m s).rs = s.rs := rfl
@[simp] theorem setZoneMode_buf (z : Zone) (m : Byte) : (setZoneMode z m s).buf = s.buf := rfl
@[simp] theorem setZoneMode_cnt (z : Zone) (m : Byte) : (setZoneMode z m s).cnt = s.cnt := rfl
@[simp] theorem setZoneMode_sysex (z : Zone) (m : Byte) : (setZoneMode z m s).sysex = s.sysex := rfl
@[simp] theorem setZoneMode_mode (z : Zone) (m : Byte) : (setZoneMode z m s).mode = s.mode.set z.toNat m z.isLt := rfl
@[simp] theorem setZoneMode_accCode (z : Zone) (m : Byte) : (setZoneMode z m s).accCode = s.accCode := rfl
@[simp] theorem setZoneMode_hacc (z : Zone) (m : Byte) : (setZoneMode z m s).hacc = s.hacc := rfl
@[simp] theorem setZoneMode_fb (z : Zone) (m : Byte) : (setZoneMode z m s).fb = s.fb := rfl
@[simp] theorem setZoneMode_ph (z : Zone) (m : Byte) : (setZoneMode z m s).ph = s.ph := rfl
@[simp] theorem setZoneMode_k (z : Zone) (m : Byte) : (setZoneMode z m s).k = s.k := rfl
@[simp] theorem setZoneMode_kOver (z : Zone) (m : Byte) : (setZoneMode z m s).kOver = s.kOver := rfl
@[simp] theorem setZoneMode_sym (z : Zone) (m : Byte) : (setZoneMode z m s).sym = s.sym := rfl
@[simp] theorem setZoneMode_latched (z : Zone) (m : Byte) : (setZoneMode z m s).latched = s.latched := rfl
@[simp] theorem setZoneMode_sh (z : Zone) (m : Byte) : (setZoneMode z m s).sh = s.sh := rfl
@[simp] theorem setZoneMode_line (z : Zone) (m : Byte) : (setZoneMode z m s).line = s.line := rfl
@[simp] theorem setZoneMode_indGroup (z : Zone) (m : Byte) : (setZoneMode z m s).indGroup = s.indGroup := rfl
@[simp] theorem setZoneMode_resetEvents (z : Zone) (m : Byte) : (setZoneMode z m s).resetEvents = s.resetEvents := rfl
@[simp] theorem setZoneMode_cfg (z : Zone) (m : Byte) : (setZoneMode z m s).cfg = s.cfg := rfl
@[simp] theorem setZoneMode_agenda (z : Zone) (m : Byte) : (setZoneMode z m s).agenda = s.agenda := rfl
@[simp] theorem setZoneMode_tick (z : Zone) (m : Byte) : (setZoneMode z m s).tick = s.tick := rfl

/-! ### `setAccCode`: a write of the count -/

@[simp] theorem setAccCode_rxHold (c : BitVec 3) : (setAccCode c s).rxHold = s.rxHold := rfl
@[simp] theorem setAccCode_rxFull (c : BitVec 3) : (setAccCode c s).rxFull = s.rxFull := rfl
@[simp] theorem setAccCode_rs (c : BitVec 3) : (setAccCode c s).rs = s.rs := rfl
@[simp] theorem setAccCode_buf (c : BitVec 3) : (setAccCode c s).buf = s.buf := rfl
@[simp] theorem setAccCode_cnt (c : BitVec 3) : (setAccCode c s).cnt = s.cnt := rfl
@[simp] theorem setAccCode_sysex (c : BitVec 3) : (setAccCode c s).sysex = s.sysex := rfl
@[simp] theorem setAccCode_mode (c : BitVec 3) : (setAccCode c s).mode = s.mode := rfl
@[simp] theorem setAccCode_accCode (c : BitVec 3) : (setAccCode c s).accCode = c := rfl
@[simp] theorem setAccCode_hacc (c : BitVec 3) : (setAccCode c s).hacc = addValue (accWord c) s.hacc := rfl
@[simp] theorem setAccCode_fb (c : BitVec 3) : (setAccCode c s).fb = s.fb := rfl
@[simp] theorem setAccCode_ph (c : BitVec 3) : (setAccCode c s).ph = s.ph := rfl
@[simp] theorem setAccCode_k (c : BitVec 3) : (setAccCode c s).k = s.k := rfl
@[simp] theorem setAccCode_kOver (c : BitVec 3) : (setAccCode c s).kOver = s.kOver := rfl
@[simp] theorem setAccCode_sym (c : BitVec 3) : (setAccCode c s).sym = s.sym := rfl
@[simp] theorem setAccCode_latched (c : BitVec 3) : (setAccCode c s).latched = s.latched := rfl
@[simp] theorem setAccCode_sh (c : BitVec 3) : (setAccCode c s).sh = s.sh := rfl
@[simp] theorem setAccCode_line (c : BitVec 3) : (setAccCode c s).line = s.line := rfl
@[simp] theorem setAccCode_indGroup (c : BitVec 3) : (setAccCode c s).indGroup = s.indGroup := rfl
@[simp] theorem setAccCode_resetEvents (c : BitVec 3) : (setAccCode c s).resetEvents = s.resetEvents := rfl
@[simp] theorem setAccCode_cfg (c : BitVec 3) : (setAccCode c s).cfg = s.cfg := rfl
@[simp] theorem setAccCode_agenda (c : BitVec 3) : (setAccCode c s).agenda = s.agenda := rfl
@[simp] theorem setAccCode_tick (c : BitVec 3) : (setAccCode c s).tick = s.tick := rfl

/-! ### `resetHacc`: the restart of `Hacc` -/

@[simp] theorem resetHacc_rxHold : (resetHacc s).rxHold = s.rxHold := rfl
@[simp] theorem resetHacc_rxFull : (resetHacc s).rxFull = s.rxFull := rfl
@[simp] theorem resetHacc_rs : (resetHacc s).rs = s.rs := rfl
@[simp] theorem resetHacc_buf : (resetHacc s).buf = s.buf := rfl
@[simp] theorem resetHacc_cnt : (resetHacc s).cnt = s.cnt := rfl
@[simp] theorem resetHacc_sysex : (resetHacc s).sysex = s.sysex := rfl
@[simp] theorem resetHacc_mode : (resetHacc s).mode = s.mode := rfl
@[simp] theorem resetHacc_accCode : (resetHacc s).accCode = s.accCode := rfl
@[simp] theorem resetHacc_hacc : (resetHacc s).hacc = [accWord s.accCode] := rfl
@[simp] theorem resetHacc_fb : (resetHacc s).fb = s.fb := rfl
@[simp] theorem resetHacc_ph : (resetHacc s).ph = s.ph := rfl
@[simp] theorem resetHacc_k : (resetHacc s).k = s.k := rfl
@[simp] theorem resetHacc_kOver : (resetHacc s).kOver = s.kOver := rfl
@[simp] theorem resetHacc_sym : (resetHacc s).sym = s.sym := rfl
@[simp] theorem resetHacc_latched : (resetHacc s).latched = s.latched := rfl
@[simp] theorem resetHacc_sh : (resetHacc s).sh = s.sh := rfl
@[simp] theorem resetHacc_line : (resetHacc s).line = s.line := rfl
@[simp] theorem resetHacc_indGroup : (resetHacc s).indGroup = s.indGroup := rfl
@[simp] theorem resetHacc_resetEvents : (resetHacc s).resetEvents = s.resetEvents := rfl
@[simp] theorem resetHacc_cfg : (resetHacc s).cfg = s.cfg := rfl
@[simp] theorem resetHacc_agenda : (resetHacc s).agenda = s.agenda := rfl
@[simp] theorem resetHacc_tick : (resetHacc s).tick = s.tick := rfl

/-! ### `setBuf`: a write of the accumulation buffer -/

@[simp] theorem setBuf_rxHold (i : Nat) (b : Byte) : (setBuf i b s).rxHold = s.rxHold := rfl
@[simp] theorem setBuf_rxFull (i : Nat) (b : Byte) : (setBuf i b s).rxFull = s.rxFull := rfl
@[simp] theorem setBuf_rs (i : Nat) (b : Byte) : (setBuf i b s).rs = s.rs := rfl
@[simp] theorem setBuf_buf (i : Nat) (b : Byte) : (setBuf i b s).buf = s.buf.setIfInBounds i b := rfl
@[simp] theorem setBuf_cnt (i : Nat) (b : Byte) : (setBuf i b s).cnt = s.cnt := rfl
@[simp] theorem setBuf_sysex (i : Nat) (b : Byte) : (setBuf i b s).sysex = s.sysex := rfl
@[simp] theorem setBuf_mode (i : Nat) (b : Byte) : (setBuf i b s).mode = s.mode := rfl
@[simp] theorem setBuf_accCode (i : Nat) (b : Byte) : (setBuf i b s).accCode = s.accCode := rfl
@[simp] theorem setBuf_hacc (i : Nat) (b : Byte) : (setBuf i b s).hacc = s.hacc := rfl
@[simp] theorem setBuf_fb (i : Nat) (b : Byte) : (setBuf i b s).fb = s.fb := rfl
@[simp] theorem setBuf_ph (i : Nat) (b : Byte) : (setBuf i b s).ph = s.ph := rfl
@[simp] theorem setBuf_k (i : Nat) (b : Byte) : (setBuf i b s).k = s.k := rfl
@[simp] theorem setBuf_kOver (i : Nat) (b : Byte) : (setBuf i b s).kOver = s.kOver := rfl
@[simp] theorem setBuf_sym (i : Nat) (b : Byte) : (setBuf i b s).sym = s.sym := rfl
@[simp] theorem setBuf_latched (i : Nat) (b : Byte) : (setBuf i b s).latched = s.latched := rfl
@[simp] theorem setBuf_sh (i : Nat) (b : Byte) : (setBuf i b s).sh = s.sh := rfl
@[simp] theorem setBuf_line (i : Nat) (b : Byte) : (setBuf i b s).line = s.line := rfl
@[simp] theorem setBuf_indGroup (i : Nat) (b : Byte) : (setBuf i b s).indGroup = s.indGroup := rfl
@[simp] theorem setBuf_resetEvents (i : Nat) (b : Byte) : (setBuf i b s).resetEvents = s.resetEvents := rfl
@[simp] theorem setBuf_cfg (i : Nat) (b : Byte) : (setBuf i b s).cfg = s.cfg := rfl
@[simp] theorem setBuf_agenda (i : Nat) (b : Byte) : (setBuf i b s).agenda = s.agenda := rfl
@[simp] theorem setBuf_tick (i : Nat) (b : Byte) : (setBuf i b s).tick = s.tick := rfl

/-! ### `setCnt`: a write of `cnt` -/

@[simp] theorem setCnt_rxHold (n : BitVec 2) : (setCnt n s).rxHold = s.rxHold := rfl
@[simp] theorem setCnt_rxFull (n : BitVec 2) : (setCnt n s).rxFull = s.rxFull := rfl
@[simp] theorem setCnt_rs (n : BitVec 2) : (setCnt n s).rs = s.rs := rfl
@[simp] theorem setCnt_buf (n : BitVec 2) : (setCnt n s).buf = s.buf := rfl
@[simp] theorem setCnt_cnt (n : BitVec 2) : (setCnt n s).cnt = n := rfl
@[simp] theorem setCnt_sysex (n : BitVec 2) : (setCnt n s).sysex = s.sysex := rfl
@[simp] theorem setCnt_mode (n : BitVec 2) : (setCnt n s).mode = s.mode := rfl
@[simp] theorem setCnt_accCode (n : BitVec 2) : (setCnt n s).accCode = s.accCode := rfl
@[simp] theorem setCnt_hacc (n : BitVec 2) : (setCnt n s).hacc = s.hacc := rfl
@[simp] theorem setCnt_fb (n : BitVec 2) : (setCnt n s).fb = s.fb := rfl
@[simp] theorem setCnt_ph (n : BitVec 2) : (setCnt n s).ph = s.ph := rfl
@[simp] theorem setCnt_k (n : BitVec 2) : (setCnt n s).k = s.k := rfl
@[simp] theorem setCnt_kOver (n : BitVec 2) : (setCnt n s).kOver = s.kOver := rfl
@[simp] theorem setCnt_sym (n : BitVec 2) : (setCnt n s).sym = s.sym := rfl
@[simp] theorem setCnt_latched (n : BitVec 2) : (setCnt n s).latched = s.latched := rfl
@[simp] theorem setCnt_sh (n : BitVec 2) : (setCnt n s).sh = s.sh := rfl
@[simp] theorem setCnt_line (n : BitVec 2) : (setCnt n s).line = s.line := rfl
@[simp] theorem setCnt_indGroup (n : BitVec 2) : (setCnt n s).indGroup = s.indGroup := rfl
@[simp] theorem setCnt_resetEvents (n : BitVec 2) : (setCnt n s).resetEvents = s.resetEvents := rfl
@[simp] theorem setCnt_cfg (n : BitVec 2) : (setCnt n s).cfg = s.cfg := rfl
@[simp] theorem setCnt_agenda (n : BitVec 2) : (setCnt n s).agenda = s.agenda := rfl
@[simp] theorem setCnt_tick (n : BitVec 2) : (setCnt n s).tick = s.tick := rfl

/-! ### `setRs`: a write of the running status -/

@[simp] theorem setRs_rxHold (b : Byte) : (setRs b s).rxHold = s.rxHold := rfl
@[simp] theorem setRs_rxFull (b : Byte) : (setRs b s).rxFull = s.rxFull := rfl
@[simp] theorem setRs_rs (b : Byte) : (setRs b s).rs = b := rfl
@[simp] theorem setRs_buf (b : Byte) : (setRs b s).buf = s.buf := rfl
@[simp] theorem setRs_cnt (b : Byte) : (setRs b s).cnt = s.cnt := rfl
@[simp] theorem setRs_sysex (b : Byte) : (setRs b s).sysex = s.sysex := rfl
@[simp] theorem setRs_mode (b : Byte) : (setRs b s).mode = s.mode := rfl
@[simp] theorem setRs_accCode (b : Byte) : (setRs b s).accCode = s.accCode := rfl
@[simp] theorem setRs_hacc (b : Byte) : (setRs b s).hacc = s.hacc := rfl
@[simp] theorem setRs_fb (b : Byte) : (setRs b s).fb = s.fb := rfl
@[simp] theorem setRs_ph (b : Byte) : (setRs b s).ph = s.ph := rfl
@[simp] theorem setRs_k (b : Byte) : (setRs b s).k = s.k := rfl
@[simp] theorem setRs_kOver (b : Byte) : (setRs b s).kOver = s.kOver := rfl
@[simp] theorem setRs_sym (b : Byte) : (setRs b s).sym = s.sym := rfl
@[simp] theorem setRs_latched (b : Byte) : (setRs b s).latched = s.latched := rfl
@[simp] theorem setRs_sh (b : Byte) : (setRs b s).sh = s.sh := rfl
@[simp] theorem setRs_line (b : Byte) : (setRs b s).line = s.line := rfl
@[simp] theorem setRs_indGroup (b : Byte) : (setRs b s).indGroup = s.indGroup := rfl
@[simp] theorem setRs_resetEvents (b : Byte) : (setRs b s).resetEvents = s.resetEvents := rfl
@[simp] theorem setRs_cfg (b : Byte) : (setRs b s).cfg = s.cfg := rfl
@[simp] theorem setRs_agenda (b : Byte) : (setRs b s).agenda = s.agenda := rfl
@[simp] theorem setRs_tick (b : Byte) : (setRs b s).tick = s.tick := rfl

/-! ### `setSysex`: a write of the SysEx-active flag -/

@[simp] theorem setSysex_rxHold (f : Bool) : (setSysex f s).rxHold = s.rxHold := rfl
@[simp] theorem setSysex_rxFull (f : Bool) : (setSysex f s).rxFull = s.rxFull := rfl
@[simp] theorem setSysex_rs (f : Bool) : (setSysex f s).rs = s.rs := rfl
@[simp] theorem setSysex_buf (f : Bool) : (setSysex f s).buf = s.buf := rfl
@[simp] theorem setSysex_cnt (f : Bool) : (setSysex f s).cnt = s.cnt := rfl
@[simp] theorem setSysex_sysex (f : Bool) : (setSysex f s).sysex = f := rfl
@[simp] theorem setSysex_mode (f : Bool) : (setSysex f s).mode = s.mode := rfl
@[simp] theorem setSysex_accCode (f : Bool) : (setSysex f s).accCode = s.accCode := rfl
@[simp] theorem setSysex_hacc (f : Bool) : (setSysex f s).hacc = s.hacc := rfl
@[simp] theorem setSysex_fb (f : Bool) : (setSysex f s).fb = s.fb := rfl
@[simp] theorem setSysex_ph (f : Bool) : (setSysex f s).ph = s.ph := rfl
@[simp] theorem setSysex_k (f : Bool) : (setSysex f s).k = s.k := rfl
@[simp] theorem setSysex_kOver (f : Bool) : (setSysex f s).kOver = s.kOver := rfl
@[simp] theorem setSysex_sym (f : Bool) : (setSysex f s).sym = s.sym := rfl
@[simp] theorem setSysex_latched (f : Bool) : (setSysex f s).latched = s.latched := rfl
@[simp] theorem setSysex_sh (f : Bool) : (setSysex f s).sh = s.sh := rfl
@[simp] theorem setSysex_line (f : Bool) : (setSysex f s).line = s.line := rfl
@[simp] theorem setSysex_indGroup (f : Bool) : (setSysex f s).indGroup = s.indGroup := rfl
@[simp] theorem setSysex_resetEvents (f : Bool) : (setSysex f s).resetEvents = s.resetEvents := rfl
@[simp] theorem setSysex_cfg (f : Bool) : (setSysex f s).cfg = s.cfg := rfl
@[simp] theorem setSysex_agenda (f : Bool) : (setSysex f s).agenda = s.agenda := rfl
@[simp] theorem setSysex_tick (f : Bool) : (setSysex f s).tick = s.tick := rfl

/-! ### `signalReset`: the reset event -/

@[simp] theorem signalReset_rxHold : (signalReset s).rxHold = s.rxHold := rfl
@[simp] theorem signalReset_rxFull : (signalReset s).rxFull = s.rxFull := rfl
@[simp] theorem signalReset_rs : (signalReset s).rs = s.rs := rfl
@[simp] theorem signalReset_buf : (signalReset s).buf = s.buf := rfl
@[simp] theorem signalReset_cnt : (signalReset s).cnt = s.cnt := rfl
@[simp] theorem signalReset_sysex : (signalReset s).sysex = s.sysex := rfl
@[simp] theorem signalReset_mode : (signalReset s).mode = s.mode := rfl
@[simp] theorem signalReset_accCode : (signalReset s).accCode = s.accCode := rfl
@[simp] theorem signalReset_hacc : (signalReset s).hacc = s.hacc := rfl
@[simp] theorem signalReset_fb : (signalReset s).fb = s.fb := rfl
@[simp] theorem signalReset_ph : (signalReset s).ph = s.ph := rfl
@[simp] theorem signalReset_k : (signalReset s).k = s.k := rfl
@[simp] theorem signalReset_kOver : (signalReset s).kOver = s.kOver := rfl
@[simp] theorem signalReset_sym : (signalReset s).sym = s.sym := rfl
@[simp] theorem signalReset_latched : (signalReset s).latched = s.latched := rfl
@[simp] theorem signalReset_sh : (signalReset s).sh = s.sh := rfl
@[simp] theorem signalReset_line : (signalReset s).line = s.line := rfl
@[simp] theorem signalReset_indGroup : (signalReset s).indGroup = s.indGroup := rfl
@[simp] theorem signalReset_resetEvents : (signalReset s).resetEvents = s.resetEvents + 1 := rfl
@[simp] theorem signalReset_cfg : (signalReset s).cfg = s.cfg := rfl
@[simp] theorem signalReset_agenda : (signalReset s).agenda = s.agenda := rfl
@[simp] theorem signalReset_tick : (signalReset s).tick = s.tick := rfl

/-! ### `deliver`: the Upstream step -/

@[simp] theorem deliver_rxHold (b : Byte) : (deliver b s).rxHold = b := rfl
@[simp] theorem deliver_rxFull (b : Byte) : (deliver b s).rxFull = true := rfl
@[simp] theorem deliver_rs (b : Byte) : (deliver b s).rs = s.rs := rfl
@[simp] theorem deliver_buf (b : Byte) : (deliver b s).buf = s.buf := rfl
@[simp] theorem deliver_cnt (b : Byte) : (deliver b s).cnt = s.cnt := rfl
@[simp] theorem deliver_sysex (b : Byte) : (deliver b s).sysex = s.sysex := rfl
@[simp] theorem deliver_mode (b : Byte) : (deliver b s).mode = s.mode := rfl
@[simp] theorem deliver_accCode (b : Byte) : (deliver b s).accCode = s.accCode := rfl
@[simp] theorem deliver_hacc (b : Byte) : (deliver b s).hacc = s.hacc := rfl
@[simp] theorem deliver_fb (b : Byte) : (deliver b s).fb = s.fb := rfl
@[simp] theorem deliver_ph (b : Byte) : (deliver b s).ph = s.ph := rfl
@[simp] theorem deliver_k (b : Byte) : (deliver b s).k = s.k := rfl
@[simp] theorem deliver_kOver (b : Byte) : (deliver b s).kOver = s.kOver := rfl
@[simp] theorem deliver_sym (b : Byte) : (deliver b s).sym = s.sym := rfl
@[simp] theorem deliver_latched (b : Byte) : (deliver b s).latched = s.latched := rfl
@[simp] theorem deliver_sh (b : Byte) : (deliver b s).sh = s.sh := rfl
@[simp] theorem deliver_line (b : Byte) : (deliver b s).line = s.line := rfl
@[simp] theorem deliver_indGroup (b : Byte) : (deliver b s).indGroup = s.indGroup := rfl
@[simp] theorem deliver_resetEvents (b : Byte) : (deliver b s).resetEvents = s.resetEvents := rfl
@[simp] theorem deliver_cfg (b : Byte) : (deliver b s).cfg = s.cfg := rfl
@[simp] theorem deliver_agenda (b : Byte) : (deliver b s).agenda = s.agenda := rfl
@[simp] theorem deliver_tick (b : Byte) : (deliver b s).tick = s.tick := rfl

/-! ### `consumeByte`: taking the held byte -/

@[simp] theorem consumeByte_rxHold : (consumeByte s).rxHold = s.rxHold := rfl
@[simp] theorem consumeByte_rxFull : (consumeByte s).rxFull = false := rfl
@[simp] theorem consumeByte_rs : (consumeByte s).rs = s.rs := rfl
@[simp] theorem consumeByte_buf : (consumeByte s).buf = s.buf := rfl
@[simp] theorem consumeByte_cnt : (consumeByte s).cnt = s.cnt := rfl
@[simp] theorem consumeByte_sysex : (consumeByte s).sysex = s.sysex := rfl
@[simp] theorem consumeByte_mode : (consumeByte s).mode = s.mode := rfl
@[simp] theorem consumeByte_accCode : (consumeByte s).accCode = s.accCode := rfl
@[simp] theorem consumeByte_hacc : (consumeByte s).hacc = s.hacc := rfl
@[simp] theorem consumeByte_fb : (consumeByte s).fb = s.fb := rfl
@[simp] theorem consumeByte_ph : (consumeByte s).ph = s.ph := rfl
@[simp] theorem consumeByte_k : (consumeByte s).k = s.k := rfl
@[simp] theorem consumeByte_kOver : (consumeByte s).kOver = s.kOver := rfl
@[simp] theorem consumeByte_sym : (consumeByte s).sym = s.sym := rfl
@[simp] theorem consumeByte_latched : (consumeByte s).latched = s.latched := rfl
@[simp] theorem consumeByte_sh : (consumeByte s).sh = s.sh := rfl
@[simp] theorem consumeByte_line : (consumeByte s).line = s.line := rfl
@[simp] theorem consumeByte_indGroup : (consumeByte s).indGroup = s.indGroup := rfl
@[simp] theorem consumeByte_resetEvents : (consumeByte s).resetEvents = s.resetEvents := rfl
@[simp] theorem consumeByte_cfg : (consumeByte s).cfg = s.cfg := rfl
@[simp] theorem consumeByte_agenda : (consumeByte s).agenda = s.agenda := rfl
@[simp] theorem consumeByte_tick : (consumeByte s).tick = s.tick := rfl

/-! ### `setCells`: a write of the cell counter -/

@[simp] theorem setCells_rxHold (n : Nat) : (setCells n s).rxHold = s.rxHold := rfl
@[simp] theorem setCells_rxFull (n : Nat) : (setCells n s).rxFull = s.rxFull := rfl
@[simp] theorem setCells_rs (n : Nat) : (setCells n s).rs = s.rs := rfl
@[simp] theorem setCells_buf (n : Nat) : (setCells n s).buf = s.buf := rfl
@[simp] theorem setCells_cnt (n : Nat) : (setCells n s).cnt = s.cnt := rfl
@[simp] theorem setCells_sysex (n : Nat) : (setCells n s).sysex = s.sysex := rfl
@[simp] theorem setCells_mode (n : Nat) : (setCells n s).mode = s.mode := rfl
@[simp] theorem setCells_accCode (n : Nat) : (setCells n s).accCode = s.accCode := rfl
@[simp] theorem setCells_hacc (n : Nat) : (setCells n s).hacc = s.hacc := rfl
@[simp] theorem setCells_fb (n : Nat) : (setCells n s).fb = s.fb := rfl
@[simp] theorem setCells_ph (n : Nat) : (setCells n s).ph = s.ph := rfl
@[simp] theorem setCells_k (n : Nat) : (setCells n s).k = BitVec.ofNat 16 n := rfl
@[simp] theorem setCells_kOver (n : Nat) : (setCells n s).kOver = n / 65536 := rfl
@[simp] theorem setCells_sym (n : Nat) : (setCells n s).sym = s.sym := rfl
@[simp] theorem setCells_latched (n : Nat) : (setCells n s).latched = s.latched := rfl
@[simp] theorem setCells_sh (n : Nat) : (setCells n s).sh = s.sh := rfl
@[simp] theorem setCells_line (n : Nat) : (setCells n s).line = s.line := rfl
@[simp] theorem setCells_indGroup (n : Nat) : (setCells n s).indGroup = s.indGroup := rfl
@[simp] theorem setCells_resetEvents (n : Nat) : (setCells n s).resetEvents = s.resetEvents := rfl
@[simp] theorem setCells_cfg (n : Nat) : (setCells n s).cfg = s.cfg := rfl
@[simp] theorem setCells_agenda (n : Nat) : (setCells n s).agenda = s.agenda := rfl
@[simp] theorem setCells_tick (n : Nat) : (setCells n s).tick = s.tick := rfl

/-! ### `emit`: one bit cell -/

@[simp] theorem emit_rxHold (l : Bool) : (emit l s).rxHold = s.rxHold := rfl
@[simp] theorem emit_rxFull (l : Bool) : (emit l s).rxFull = s.rxFull := rfl
@[simp] theorem emit_rs (l : Bool) : (emit l s).rs = s.rs := rfl
@[simp] theorem emit_buf (l : Bool) : (emit l s).buf = s.buf := rfl
@[simp] theorem emit_cnt (l : Bool) : (emit l s).cnt = s.cnt := rfl
@[simp] theorem emit_sysex (l : Bool) : (emit l s).sysex = s.sysex := rfl
@[simp] theorem emit_mode (l : Bool) : (emit l s).mode = s.mode := rfl
@[simp] theorem emit_accCode (l : Bool) : (emit l s).accCode = s.accCode := rfl
@[simp] theorem emit_hacc (l : Bool) : (emit l s).hacc = s.hacc := rfl
@[simp] theorem emit_fb (l : Bool) : (emit l s).fb = s.fb := rfl
@[simp] theorem emit_ph (l : Bool) : (emit l s).ph = s.ph := rfl
@[simp] theorem emit_k (l : Bool) : (emit l s).k = s.k := rfl
@[simp] theorem emit_kOver (l : Bool) : (emit l s).kOver = s.kOver := rfl
@[simp] theorem emit_sym (l : Bool) : (emit l s).sym = s.sym := rfl
@[simp] theorem emit_latched (l : Bool) : (emit l s).latched = s.latched := rfl
@[simp] theorem emit_sh (l : Bool) : (emit l s).sh = s.sh := rfl
@[simp] theorem emit_line (l : Bool) : (emit l s).line = l := rfl
@[simp] theorem emit_indGroup (l : Bool) : (emit l s).indGroup = s.indGroup := rfl
@[simp] theorem emit_resetEvents (l : Bool) : (emit l s).resetEvents = s.resetEvents := rfl
@[simp] theorem emit_cfg (l : Bool) : (emit l s).cfg = s.cfg := rfl
@[simp] theorem emit_agenda (l : Bool) : (emit l s).agenda = s.agenda := rfl
@[simp] theorem emit_tick (l : Bool) : (emit l s).tick = s.tick := rfl

/-! ### `takeMove`: taking a move -/

@[simp] theorem takeMove_rxHold : (takeMove s).rxHold = s.rxHold := rfl
@[simp] theorem takeMove_rxFull : (takeMove s).rxFull = s.rxFull := rfl
@[simp] theorem takeMove_rs : (takeMove s).rs = s.rs := rfl
@[simp] theorem takeMove_buf : (takeMove s).buf = s.buf := rfl
@[simp] theorem takeMove_cnt : (takeMove s).cnt = s.cnt := rfl
@[simp] theorem takeMove_sysex : (takeMove s).sysex = s.sysex := rfl
@[simp] theorem takeMove_mode : (takeMove s).mode = s.mode := rfl
@[simp] theorem takeMove_accCode : (takeMove s).accCode = s.accCode := rfl
@[simp] theorem takeMove_hacc : (takeMove s).hacc = s.hacc := rfl
@[simp] theorem takeMove_fb : (takeMove s).fb = s.fb := rfl
@[simp] theorem takeMove_ph : (takeMove s).ph = s.ph := rfl
@[simp] theorem takeMove_k : (takeMove s).k = s.k := rfl
@[simp] theorem takeMove_kOver : (takeMove s).kOver = s.kOver := rfl
@[simp] theorem takeMove_sym : (takeMove s).sym = s.sym := rfl
@[simp] theorem takeMove_latched : (takeMove s).latched = s.latched := rfl
@[simp] theorem takeMove_sh : (takeMove s).sh = s.sh := rfl
@[simp] theorem takeMove_line : (takeMove s).line = s.line := rfl
@[simp] theorem takeMove_indGroup : (takeMove s).indGroup = s.indGroup := rfl
@[simp] theorem takeMove_resetEvents : (takeMove s).resetEvents = s.resetEvents := rfl
@[simp] theorem takeMove_cfg : (takeMove s).cfg = s.cfg := rfl
@[simp] theorem takeMove_agenda : (takeMove s).agenda = s.agenda.tail := rfl
@[simp] theorem takeMove_tick : (takeMove s).tick = s.tick + 1 := rfl

/-! ### `placeByte`: placing a byte -/

@[simp] theorem placeByte_rxHold (b : Byte) : (placeByte b s).rxHold = b := rfl
@[simp] theorem placeByte_rxFull (b : Byte) : (placeByte b s).rxFull = true := rfl
@[simp] theorem placeByte_rs (b : Byte) : (placeByte b s).rs = s.rs := rfl
@[simp] theorem placeByte_buf (b : Byte) : (placeByte b s).buf = s.buf := rfl
@[simp] theorem placeByte_cnt (b : Byte) : (placeByte b s).cnt = s.cnt := rfl
@[simp] theorem placeByte_sysex (b : Byte) : (placeByte b s).sysex = s.sysex := rfl
@[simp] theorem placeByte_mode (b : Byte) : (placeByte b s).mode = s.mode := rfl
@[simp] theorem placeByte_accCode (b : Byte) : (placeByte b s).accCode = s.accCode := rfl
@[simp] theorem placeByte_hacc (b : Byte) : (placeByte b s).hacc = s.hacc := rfl
@[simp] theorem placeByte_fb (b : Byte) : (placeByte b s).fb = s.fb := rfl
@[simp] theorem placeByte_ph (b : Byte) : (placeByte b s).ph = s.ph := rfl
@[simp] theorem placeByte_k (b : Byte) : (placeByte b s).k = s.k := rfl
@[simp] theorem placeByte_kOver (b : Byte) : (placeByte b s).kOver = s.kOver := rfl
@[simp] theorem placeByte_sym (b : Byte) : (placeByte b s).sym = s.sym := rfl
@[simp] theorem placeByte_latched (b : Byte) : (placeByte b s).latched = s.latched := rfl
@[simp] theorem placeByte_sh (b : Byte) : (placeByte b s).sh = s.sh := rfl
@[simp] theorem placeByte_line (b : Byte) : (placeByte b s).line = s.line := rfl
@[simp] theorem placeByte_indGroup (b : Byte) : (placeByte b s).indGroup = s.indGroup := rfl
@[simp] theorem placeByte_resetEvents (b : Byte) : (placeByte b s).resetEvents = s.resetEvents := rfl
@[simp] theorem placeByte_cfg (b : Byte) : (placeByte b s).cfg = s.cfg := rfl
@[simp] theorem placeByte_agenda (b : Byte) : (placeByte b s).agenda = .parser :: s.agenda := rfl
@[simp] theorem placeByte_tick (b : Byte) : (placeByte b s).tick = s.tick := rfl

/-! ### `resetParser`: the reset of the parser's registers -/

@[simp] theorem resetParser_rxHold : (resetParser s).rxHold = s.rxHold := rfl
@[simp] theorem resetParser_rxFull : (resetParser s).rxFull = s.rxFull := rfl
@[simp] theorem resetParser_rs : (resetParser s).rs = 0x00#8 := rfl
@[simp] theorem resetParser_buf : (resetParser s).buf = #v[0x00#8, 0x00#8, 0x00#8] := rfl
@[simp] theorem resetParser_cnt : (resetParser s).cnt = 0#2 := rfl
@[simp] theorem resetParser_sysex : (resetParser s).sysex = false := rfl
@[simp] theorem resetParser_mode : (resetParser s).mode = s.mode := rfl
@[simp] theorem resetParser_accCode : (resetParser s).accCode = s.accCode := rfl
@[simp] theorem resetParser_hacc : (resetParser s).hacc = s.hacc := rfl
@[simp] theorem resetParser_fb : (resetParser s).fb = s.fb := rfl
@[simp] theorem resetParser_ph : (resetParser s).ph = s.ph := rfl
@[simp] theorem resetParser_k : (resetParser s).k = s.k := rfl
@[simp] theorem resetParser_kOver : (resetParser s).kOver = s.kOver := rfl
@[simp] theorem resetParser_sym : (resetParser s).sym = s.sym := rfl
@[simp] theorem resetParser_latched : (resetParser s).latched = s.latched := rfl
@[simp] theorem resetParser_sh : (resetParser s).sh = s.sh := rfl
@[simp] theorem resetParser_line : (resetParser s).line = s.line := rfl
@[simp] theorem resetParser_indGroup : (resetParser s).indGroup = s.indGroup := rfl
@[simp] theorem resetParser_resetEvents : (resetParser s).resetEvents = s.resetEvents := rfl
@[simp] theorem resetParser_cfg : (resetParser s).cfg = s.cfg := rfl
@[simp] theorem resetParser_agenda : (resetParser s).agenda = s.agenda := rfl
@[simp] theorem resetParser_tick : (resetParser s).tick = s.tick := rfl

/-! ### `resetTables`: the reset of the tables -/

@[simp] theorem resetTables_rxHold : (resetTables s).rxHold = s.rxHold := rfl
@[simp] theorem resetTables_rxFull : (resetTables s).rxFull = s.rxFull := rfl
@[simp] theorem resetTables_rs : (resetTables s).rs = s.rs := rfl
@[simp] theorem resetTables_buf : (resetTables s).buf = s.buf := rfl
@[simp] theorem resetTables_cnt : (resetTables s).cnt = s.cnt := rfl
@[simp] theorem resetTables_sysex : (resetTables s).sysex = s.sysex := rfl
@[simp] theorem resetTables_mode : (resetTables s).mode = #v[0x00#8, 0x00#8, 0x00#8, 0x00#8] := rfl
@[simp] theorem resetTables_accCode : (resetTables s).accCode = 0#3 := rfl
@[simp] theorem resetTables_hacc : (resetTables s).hacc = addValue (accWord 0#3) s.hacc := rfl
@[simp] theorem resetTables_fb : (resetTables s).fb = s.fb := rfl
@[simp] theorem resetTables_ph : (resetTables s).ph = s.ph := rfl
@[simp] theorem resetTables_k : (resetTables s).k = s.k := rfl
@[simp] theorem resetTables_kOver : (resetTables s).kOver = s.kOver := rfl
@[simp] theorem resetTables_sym : (resetTables s).sym = s.sym := rfl
@[simp] theorem resetTables_latched : (resetTables s).latched = s.latched := rfl
@[simp] theorem resetTables_sh : (resetTables s).sh = s.sh := rfl
@[simp] theorem resetTables_line : (resetTables s).line = s.line := rfl
@[simp] theorem resetTables_indGroup : (resetTables s).indGroup = s.indGroup := rfl
@[simp] theorem resetTables_resetEvents : (resetTables s).resetEvents = s.resetEvents := rfl
@[simp] theorem resetTables_cfg : (resetTables s).cfg = s.cfg := rfl
@[simp] theorem resetTables_agenda : (resetTables s).agenda = s.agenda := rfl
@[simp] theorem resetTables_tick : (resetTables s).tick = s.tick := rfl

/-! ### `clearSlots`: the bulk clear -/

@[simp] theorem clearSlots_rxHold : (clearSlots s).rxHold = s.rxHold := rfl
@[simp] theorem clearSlots_rxFull : (clearSlots s).rxFull = s.rxFull := rfl
@[simp] theorem clearSlots_rs : (clearSlots s).rs = s.rs := rfl
@[simp] theorem clearSlots_buf : (clearSlots s).buf = s.buf := rfl
@[simp] theorem clearSlots_cnt : (clearSlots s).cnt = s.cnt := rfl
@[simp] theorem clearSlots_sysex : (clearSlots s).sysex = s.sysex := rfl
@[simp] theorem clearSlots_mode : (clearSlots s).mode = s.mode := rfl
@[simp] theorem clearSlots_accCode : (clearSlots s).accCode = s.accCode := rfl
@[simp] theorem clearSlots_hacc : (clearSlots s).hacc = s.hacc := rfl
@[simp] theorem clearSlots_fb : (clearSlots s).fb = Memory.clear := rfl
@[simp] theorem clearSlots_ph : (clearSlots s).ph = s.ph := rfl
@[simp] theorem clearSlots_k : (clearSlots s).k = s.k := rfl
@[simp] theorem clearSlots_kOver : (clearSlots s).kOver = s.kOver := rfl
@[simp] theorem clearSlots_sym : (clearSlots s).sym = s.sym := rfl
@[simp] theorem clearSlots_latched : (clearSlots s).latched = s.latched := rfl
@[simp] theorem clearSlots_sh : (clearSlots s).sh = s.sh := rfl
@[simp] theorem clearSlots_line : (clearSlots s).line = s.line := rfl
@[simp] theorem clearSlots_indGroup : (clearSlots s).indGroup = s.indGroup := rfl
@[simp] theorem clearSlots_resetEvents : (clearSlots s).resetEvents = s.resetEvents := rfl
@[simp] theorem clearSlots_cfg : (clearSlots s).cfg = s.cfg := rfl
@[simp] theorem clearSlots_agenda : (clearSlots s).agenda = s.agenda := rfl
@[simp] theorem clearSlots_tick : (clearSlots s).tick = s.tick := rfl

/-! ### The cell counter -/

/-- The counter reads what was last written to it (R33). -/
@[simp] theorem cellsDone_setCells (n : Nat) : cellsDone (setCells n s) = n := by
  simp [cellsDone]
  omega

@[simp] theorem cellsDone_resetHacc : cellsDone (resetHacc s) = cellsDone s := rfl
@[simp] theorem cellsDone_emit (l : Bool) : cellsDone (emit l s) = cellsDone s := rfl
@[simp] theorem cellsDone_takeMove : cellsDone (takeMove s) = cellsDone s := rfl

/-- The counter is 0 exactly when `k` and its overflow are. -/
theorem cellsDone_eq_zero : cellsDone s = 0 ↔ s.k = 0#16 ∧ s.kOver = 0 := by
  have h : s.k.toNat = 0 ↔ s.k = 0#16 := ⟨fun e => BitVec.eq_of_toNat_eq e, fun e => by rw [e]; rfl⟩
  rw [← h, cellsDone]
  omega

/-- A count that fits 16 bits is `k` itself (R33). -/
theorem cellsDone_fits {s : State} (h : cellsDone s ≤ 65535) : s.kOver = 0 ∧ s.k.toNat = cellsDone s := by
  unfold cellsDone at *
  omega

end Sys2Proof.Machine
end

