-- ==== Sys2Proof/Laws/Parser.lean ====
section
/-! SUPPORT. What the shared operations of the parser and the dispatch stage can do, said once: the cases of `dispatch`, what
completing a message leaves alone, what starting a message leaves (spec/40_parser.md R110, R134; spec/41_mapper.md R150, R151). -/

namespace Sys2Proof.Machine

@[simp] theorem addValue_of_mem {v : BitVec 16} {vs : List (BitVec 16)} (h : v ∈ vs) : addValue v vs = vs := by simp [addValue, h]

theorem mem_addValue {v w : BitVec 16} {vs : List (BitVec 16)} : w ∈ addValue v vs ↔ w = v ∨ w ∈ vs := by
  unfold addValue; split_ifs with h <;> simp
  rintro rfl; exact h

theorem addValue_nodup {v : BitVec 16} {vs : List (BitVec 16)} (h : vs.Nodup) : (addValue v vs).Nodup := by
  unfold addValue; split_ifs with hv <;> simp [*]

/-- Dispatch writes nothing, or one slot inside the frame buffer, or one mode with the count (R150). -/
theorem dispatch_cases (m : Msg) (s : State) :
    dispatch m s = s ∨
    (∃ z note v on, dispatch m s = memWrite (slotIndex z note) (slotValue v on) s) ∨
    (∃ z prog, dispatch m s = mapProgramChange z prog s) := by
  unfold dispatch
  split_ifs with ht
  · exact .inl rfl
  cases hz : zoneOf (statusChan m.status) with
  | none => exact .inl rfl
  | some z =>
    simp only []
    unfold mapZone
    split
    · unfold mapNoteOff; split_ifs
      · exact .inr (.inl ⟨_, _, _, _, rfl⟩)
      · exact .inl rfl
    · exact .inr (.inl ⟨_, _, _, _, rfl⟩)
    · unfold mapPolyPressure; split_ifs
      · exact .inr (.inl ⟨_, _, _, _, rfl⟩)
      · exact .inl rfl
    · exact .inl rfl
    · exact .inr (.inr ⟨_, _, rfl⟩)
    · exact .inl rfl
    · exact .inl rfl
    · exact .inl rfl

/-- A System message has no effect (R162). -/
theorem dispatch_system {m : Msg} (h : statusType m.status = 0xF#4) (s : State) : dispatch m s = s := by simp [dispatch, h]

/-- A message on a channel above 3 has no effect (R151). -/
theorem dispatch_channel {m : Msg} (h : 4 ≤ (statusChan m.status).toNat) (s : State) : dispatch m s = s := by
  simp [dispatch, zoneOf_eq_none.mpr h]

theorem mapProgramChange_eq (z : Zone) (prog : Data7) (s : State) :
    mapProgramChange z prog s = setAccCode (prio (s.mode.set z.toNat (dataByte prog) z.isLt)) (setZoneMode z (dataByte prog) s) := rfl

/-- Dispatch leaves the receive register, the parser's registers, the Transmitter and the model's own fields alone (R61). -/
theorem dispatch_frame (m : Msg) (s : State) :
    SameRx s (dispatch m s) ∧ SameParser s (dispatch m s) ∧ SameTx s (dispatch m s) ∧ SameEnv s (dispatch m s) ∧
    (dispatch m s).resetEvents = s.resetEvents := by
  rcases dispatch_cases m s with h | ⟨z, n, v, on, h⟩ | ⟨z, p, h⟩ <;> rw [h] <;> simp [mapProgramChange_eq, SameRx, SameParser, SameTx, SameEnv]

/-- Completing a message, or not, leaves the receive register, the Transmitter and the model's own fields alone, and of the
parser's registers changes only `cnt`. -/
theorem completeIfFull_frame (s : State) :
    SameRx s (completeIfFull s) ∧ SameTx s (completeIfFull s) ∧ SameEnv s (completeIfFull s) ∧
    (completeIfFull s).rs = s.rs ∧ (completeIfFull s).buf = s.buf ∧ (completeIfFull s).sysex = s.sysex ∧
    (completeIfFull s).resetEvents = s.resetEvents := by
  unfold completeIfFull complete
  split_ifs
  · have h := dispatch_frame (bufferedMsg s.buf s.cnt.toNat) s
    exact ⟨h.1, h.2.2.1, h.2.2.2.1, h.2.1.1, h.2.1.2.1, h.2.1.2.2.2, h.2.2.2.2⟩
  · simp [SameRx, SameTx, SameEnv]

theorem setBuf_zero (b : Byte) (s : State) : setBuf 0 b s = { s with buf := s.buf.set 0 b } := by
  simp [setBuf, Vector.setIfInBounds, Vector.set, Array.setIfInBounds]

theorem setBuf_one (b : Byte) (s : State) : setBuf 1 b s = { s with buf := s.buf.set 1 b } := by
  simp [setBuf, Vector.setIfInBounds, Vector.set, Array.setIfInBounds]

theorem setBuf_two (b : Byte) (s : State) : setBuf 2 b s = { s with buf := s.buf.set 2 b } := by
  simp [setBuf, Vector.setIfInBounds, Vector.set, Array.setIfInBounds]

/-- A status byte of length 2 or 3 starts a message that is not complete (R123 to R126). -/
theorem startMessage_long {b : Byte} (h : msgLen b = some 2 ∨ msgLen b = some 3) (s : State) :
    startMessage b s = { s with buf := s.buf.set 0 b, cnt := 1#2 } := by
  unfold startMessage completeIfFull
  rw [setBuf_zero]
  rcases h with h | h <;> simp [setCnt, h]

/-- A System Common byte of length 1 is complete at once, with no effect (R127 to R129). -/
theorem startMessage_short {b : Byte} (h : msgLen b = some 1) (hs : statusType b = 0xF#4) (s : State) :
    startMessage b s = { s with buf := s.buf.set 0 b, cnt := 0#2 } := by
  unfold startMessage completeIfFull
  rw [setBuf_zero]
  simp [setCnt, h, complete, dispatch_system, bufferedMsg, hs]

end Sys2Proof.Machine
end

