-- ==== Sys2Proof/Laws/PerInstr.lean ====
section
/-! SUPPORT. The statement made of each instruction: its encoding has the bits that its row of spec/opcode_table.json fixes. -/

namespace Sys2Proof.Laws.RowBits

/-- The bits the row of an instruction fixes, as a mask (opcode_table.json, `mask`). -/
def rowMask : Instr → Byte
  | .dataRunningStatus _ => 0x80#8
  | .dataNoStatus _ => 0x80#8
  | .dataContinue _ => 0x80#8
  | .sysexByte _ => 0x00#8
  | .noteOff _ => 0xF0#8
  | .noteOn _ => 0xF0#8
  | .polyPressure _ => 0xF0#8
  | .controlChange _ => 0xF0#8
  | .programChange _ => 0xF0#8
  | .channelPressure _ => 0xF0#8
  | .pitchBend _ => 0xF0#8
  | .sysexStart => 0xFF#8
  | .scF1 => 0xFF#8
  | .scF2 => 0xFF#8
  | .scF3 => 0xFF#8
  | .scF4 => 0xFF#8
  | .scF5 => 0xFF#8
  | .scF6 => 0xFF#8
  | .eox => 0xFF#8
  | .eoxStray => 0xFF#8
  | .rtF8 => 0xFF#8
  | .rtF9 => 0xFF#8
  | .rtFA => 0xFF#8
  | .rtFB => 0xFF#8
  | .rtFC => 0xFF#8
  | .rtFD => 0xFF#8
  | .rtFE => 0xFF#8
  | .systemReset => 0xFF#8

/-- The values of the fixed bits (opcode_table.json, `match`). -/
def rowValue : Instr → Byte
  | .dataRunningStatus _ => 0x00#8
  | .dataNoStatus _ => 0x00#8
  | .dataContinue _ => 0x00#8
  | .sysexByte _ => 0x00#8
  | .noteOff _ => 0x80#8
  | .noteOn _ => 0x90#8
  | .polyPressure _ => 0xA0#8
  | .controlChange _ => 0xB0#8
  | .programChange _ => 0xC0#8
  | .channelPressure _ => 0xD0#8
  | .pitchBend _ => 0xE0#8
  | .sysexStart => 0xF0#8
  | .scF1 => 0xF1#8
  | .scF2 => 0xF2#8
  | .scF3 => 0xF3#8
  | .scF4 => 0xF4#8
  | .scF5 => 0xF5#8
  | .scF6 => 0xF6#8
  | .eox => 0xF7#8
  | .eoxStray => 0xF7#8
  | .rtF8 => 0xF8#8
  | .rtF9 => 0xF9#8
  | .rtFA => 0xFA#8
  | .rtFB => 0xFB#8
  | .rtFC => 0xFC#8
  | .rtFD => 0xFD#8
  | .rtFE => 0xFE#8
  | .systemReset => 0xFF#8

/-- The encoding has its row's fixed bits. -/
def Statement (i : Instr) : Prop := encode i &&& rowMask i = rowValue i

theorem dataRunningStatus (value : Data7) : Statement (.dataRunningStatus value) := by
  revert value; unfold Statement; decide +kernel

theorem dataNoStatus (value : Data7) : Statement (.dataNoStatus value) := by
  revert value; unfold Statement; decide +kernel

theorem dataContinue (value : Data7) : Statement (.dataContinue value) := by
  revert value; unfold Statement; decide +kernel

theorem sysexByte (b : Byte) : Statement (.sysexByte b) := by
  revert b; unfold Statement; decide +kernel

theorem noteOff (chan : Chan) : Statement (.noteOff chan) := by
  revert chan; unfold Statement; decide

theorem noteOn (chan : Chan) : Statement (.noteOn chan) := by
  revert chan; unfold Statement; decide

theorem polyPressure (chan : Chan) : Statement (.polyPressure chan) := by
  revert chan; unfold Statement; decide

theorem controlChange (chan : Chan) : Statement (.controlChange chan) := by
  revert chan; unfold Statement; decide

theorem programChange (chan : Chan) : Statement (.programChange chan) := by
  revert chan; unfold Statement; decide

theorem channelPressure (chan : Chan) : Statement (.channelPressure chan) := by
  revert chan; unfold Statement; decide

theorem pitchBend (chan : Chan) : Statement (.pitchBend chan) := by
  revert chan; unfold Statement; decide

theorem sysexStart : Statement .sysexStart := rfl

theorem scF1 : Statement .scF1 := rfl

theorem scF2 : Statement .scF2 := rfl

theorem scF3 : Statement .scF3 := rfl

theorem scF4 : Statement .scF4 := rfl

theorem scF5 : Statement .scF5 := rfl

theorem scF6 : Statement .scF6 := rfl

theorem eox : Statement .eox := rfl

theorem eoxStray : Statement .eoxStray := rfl

theorem rtF8 : Statement .rtF8 := rfl

theorem rtF9 : Statement .rtF9 := rfl

theorem rtFA : Statement .rtFA := rfl

theorem rtFB : Statement .rtFB := rfl

theorem rtFC : Statement .rtFC := rfl

theorem rtFD : Statement .rtFD := rfl

theorem rtFE : Statement .rtFE := rfl

theorem systemReset : Statement .systemReset := rfl

end Sys2Proof.Laws.RowBits
end

