-- ==== Sys2Proof/Laws/Step.lean ====
section
/-! SUPPORT. What a step can be: the inversion of `step` into the moves of the agents (spec/00_scope.md R8). -/

namespace Sys2Proof.Machine

/-- The legal configurations in numbers (R5). -/
theorem legal_iff {c : Config} : c.legal = true ↔ 23 ≤ c.breakBits ∧ 2 ≤ c.mabBits := by
  rw [Config.legal, Bool.and_eq_true, decide_eq_true_iff, decide_eq_true_iff]
  rfl

theorem step_of_legal {s : State} (h : s.cfg.legal = true) : step s = runMove (nextMove s) (takeMove s) := by simp [step, h]

theorem parserStep_full {s : State} (h : s.rxFull = true) : parserStep s = exec (heldInstr s) (consumeByte s) := by
  simp [parserStep, h]

theorem parserStep_empty {s : State} (h : s.rxFull = false) : parserStep s = .next s := by simp [parserStep, h]

/-- Every step that answers is a delivery, a Parser step on a held byte, a Parser that is not enabled, or a Transmitter step. -/
theorem step_cases {s t : State} (h : step s = .next t) :
    s.cfg.legal = true ∧
    ((∃ b, nextMove s = .deliver b ∧ t = deliver b (takeMove s)) ∨
     (nextMove s = .parser ∧ s.rxFull = true ∧ exec (heldInstr s) (consumeByte (takeMove s)) = .next t) ∨
     (nextMove s = .parser ∧ s.rxFull = false ∧ t = takeMove s) ∨
     (nextMove s = .transmitter ∧ txStep (takeMove s) = .next t)) := by
  unfold step at h
  split_ifs at h with hl
  refine ⟨hl, ?_⟩
  cases hm : nextMove s with
  | deliver b =>
    rw [hm] at h
    cases h
    exact .inl ⟨b, rfl, rfl⟩
  | parser =>
    rw [hm] at h
    cases hf : s.rxFull with
    | true => exact .inr (.inl ⟨rfl, rfl, (parserStep_full (s := takeMove s) hf) ▸ h⟩)
    | false =>
      have h' : (.next (takeMove s) : Host.Outcome State Fault Refusal) = .next t := (parserStep_empty (s := takeMove s) hf) ▸ h
      cases h'
      exact .inr (.inr (.inl ⟨rfl, rfl, rfl⟩))
  | transmitter =>
    rw [hm] at h
    exact .inr (.inr (.inr ⟨rfl, h⟩))

end Sys2Proof.Machine
end

