-- ==== Sys2Proof/Laws/Transmitter.lean ====
section
/-! SUPPORT. What a cell of each phase does, and what a Transmitter step can change at all (spec/42_transmitter.md R193). -/

namespace Sys2Proof.Machine

/-- The last cell of a phase. -/
theorem phaseCell_last {l : Bool} {len : Nat} {done : State → State} {s : State} (h : cellsDone s + 1 = len) :
    phaseCell l len done s = done (setCells 0 (emit l s)) := by
  simp [phaseCell, h]

/-- A cell of a phase that is not its last. -/
theorem phaseCell_more {l : Bool} {len : Nat} {done : State → State} {s : State} (h : cellsDone s + 1 ≠ len) :
    phaseCell l len done s = setCells (cellsDone s + 1) (emit l s) := by
  simp [phaseCell, h]

/-- A cell of a phase is at the phase's level and leaves the latched byte, when what follows the phase leaves both. -/
theorem phaseCell_line_sh {l : Bool} {len : Nat} {done : State → State} (hd : ∀ t, (done t).line = t.line ∧ (done t).sh = t.sh)
    (s : State) : (phaseCell l len done s).line = l ∧ (phaseCell l len done s).sh = s.sh := by
  by_cases h : cellsDone s + 1 = len
  · rw [phaseCell_last h]; simp [hd]
  · rw [phaseCell_more h]; simp

/-- Only the Transmitter's registers differ. -/
abbrev OnlyTx (s t : State) : Prop :=
  t = { s with ph := t.ph, k := t.k, kOver := t.kOver, sym := t.sym, latched := t.latched, sh := t.sh, line := t.line, indGroup := t.indGroup }

theorem phaseCell_onlyTx {l : Bool} {len : Nat} {done : State → State} (hd : ∀ t, OnlyTx t (done t)) (s : State) :
    OnlyTx s (phaseCell l len done s) := by
  by_cases h : cellsDone s + 1 = len
  · rw [phaseCell_last h]
    have := hd (setCells 0 (emit l s))
    unfold OnlyTx at this ⊢
    rw [this]
    rfl
  · rw [phaseCell_more h]
    rfl

theorem nextSymbol_onlyTx (s : State) : OnlyTx s (nextSymbol s) := by
  unfold nextSymbol; split_ifs <;> rfl

/-- The step to the next symbol leaves the line, the cell counter and the latched byte as they are. -/
@[simp] theorem nextSymbol_line (s : State) : (nextSymbol s).line = s.line := by unfold nextSymbol; split_ifs <;> rfl
@[simp] theorem cellsDone_nextSymbol (s : State) : cellsDone (nextSymbol s) = cellsDone s := by unfold nextSymbol; split_ifs <;> rfl
@[simp] theorem nextSymbol_sh (s : State) : (nextSymbol s).sh = s.sh := by unfold nextSymbol; split_ifs <;> rfl

/-- In a framed byte the Transmitter step is `frmStep`. -/
theorem txStep_frm {s : State} (hp : s.ph = .frm) : txStep s = mapNext resetHacc (frmStep s) := by simp [txStep, txCell, hp]

theorem breakCell_onlyTx (s : State) : OnlyTx s (breakCell s) := phaseCell_onlyTx (fun _ => rfl) s

theorem cstartStep_onlyTx (s : State) : OnlyTx s (cstartStep s) := by
  unfold cstartStep
  simp only []
  split_ifs
  · rfl
  · have := breakCell_onlyTx (setCells 0 { s with latched := readCount s, indGroup := groupsOn (readCount s), ph := .brk })
    unfold OnlyTx at this ⊢
    rw [this]
    rfl

theorem frmStep_onlyTx {s t : State} (h : frmStep s = .next t) : OnlyTx s t := by
  unfold frmStep at h
  split_ifs at h
  · cases hb : symbolByte s with
    | error e => simp [hb] at h
    | ok b =>
      simp only [hb, Host.Outcome.next.injEq] at h
      subst h
      have := phaseCell_onlyTx (l := false) (len := Config.frameBits) nextSymbol_onlyTx { s with sh := b }
      unfold OnlyTx at this ⊢
      unfold frameCell
      rw [this]
  · cases h; exact phaseCell_onlyTx nextSymbol_onlyTx s
  · cases h; exact phaseCell_onlyTx nextSymbol_onlyTx s

theorem txCell_onlyTx {s t : State} (h : txCell s = .next t) : OnlyTx s t := by
  unfold txCell at h
  split at h
  · cases h; exact cstartStep_onlyTx s
  · cases h; exact breakCell_onlyTx s
  · cases h; exact phaseCell_onlyTx (fun _ => rfl) s
  · cases h; exact phaseCell_onlyTx (fun _ => rfl) s
  · exact frmStep_onlyTx h
  · cases h; exact phaseCell_onlyTx (fun _ => rfl) s

/-- A Transmitter step that answers is its cell and the restart of `Hacc`. -/
theorem txStep_eq_next {s t : State} : txStep s = .next t ↔ ∃ u, txCell s = .next u ∧ t = resetHacc u := by
  unfold txStep
  cases txCell s <;> simp [mapNext, eq_comm]

/-- A Transmitter step changes the Transmitter's registers and `Hacc`, nothing else. -/
theorem txStep_onlyTx {s t : State} (h : txStep s = .next t) : OnlyTx { s with hacc := [accWord s.accCode] } t := by
  obtain ⟨u, hu, rfl⟩ := txStep_eq_next.mp h
  have hu' := txCell_onlyTx hu
  unfold OnlyTx at hu' ⊢
  rw [hu']
  rfl

/-- The indicators follow the count they are given, group by group (R184). -/
theorem groupsOn_getElem (n : BitVec 10) (g : Nat) (hg : g < 4) : (groupsOn n)[g] = decide (128 * g < n.toNat) := by
  rcases (by omega : g = 0 ∨ g = 1 ∨ g = 2 ∨ g = 3) with rfl | rfl | rfl | rfl <;> simp [groupsOn]

/-- With `ACC_TEAR = false` the count is read whole (R67). -/
theorem readCount_whole {s : State} (h : s.cfg.accTear = false) : readCount s = accCount s.accCode := by simp [readCount, h]

end Sys2Proof.Machine
end

