-- ==== Sys2Proof/Tests/Slice0.lean ====
section
/-! SUPPORT. Tests of the model, with results taken from spec/ (the encodings of 30_encoding.md, the examples of 40_parser.md and
41_mapper.md, the vectors of 95_test_vectors.md), and for every obligation with hypotheses a state that meets them. -/

open Sys2Proof Sys2Proof.Machine

namespace Sys2Proof.Tests

/-! ### Helpers -/

/-- The state a step or a meaning answers; the power-on state if it stops. -/
def after (o : Host.Outcome State Fault Refusal) : State :=
  match o with
  | .next t => t
  | .fault _ => State.reset
  | .refused _ => State.reset

/-- Power-on with a running status. -/
def withRs (b : Byte) : State := { State.reset with rs := b }

/-- A message in progress: its status byte, its first data byte and the count of bytes held. -/
def inMessage (st d1 : Byte) (n : BitVec 2) : State := { State.reset with rs := st, buf := #v[st, d1, 0x00#8], cnt := n }

/-- Inside SysEx. -/
def inSysex : State := { State.reset with sysex := true, rs := 0x90#8 }

/-- The Transmitter at the start bit of symbol `sym` in a cycle of `n` slots. -/
def atSymbol (sym n : BitVec 10) : State := { State.reset with ph := .frm, sym := sym, latched := n, agenda := [.transmitter] }

/-- A configuration in which the read of the count can tear. -/
def tearing : Config := { Config.defaults with accTear := true }

/-! ### Well-formedness -/

theorem test_wellFormed_refuses_realtime_in_sysex : (Instr.sysexByte 0xF8#8).wellFormed = false := by decide
theorem test_wellFormed_refuses_eox_as_content : (Instr.sysexByte 0xF7#8).wellFormed = false := by decide
theorem test_wellFormed_takes_status_as_content : (Instr.sysexByte 0xF6#8).wellFormed = true := by decide

/-! ### Decoding of bytes written out from R82 and R85 to R88 -/

/-- Outside SysEx with a running status and no message in progress. -/
def ctxRunning : DecodeCtx := ⟨false, 0b00#2, 0b10010000#8⟩
/-- A message in progress. -/
def ctxInMessage : DecodeCtx := ⟨false, 0b01#2, 0b10010000#8⟩
/-- Inside SysEx. -/
def ctxSysex : DecodeCtx := ⟨true, 0b00#2, 0b10010000#8⟩

theorem test_decode_data :
    decodeByte ctxRunning 0b01111111#8 = .dataRunningStatus 0b1111111#7 ∧
    decodeByte DecodeCtx.powerOn 0b00111100#8 = .dataNoStatus 0b0111100#7 ∧
    decodeByte ctxInMessage 0b01000000#8 = .dataContinue 0b1000000#7 := by decide

theorem test_decode_channel_voice :
    decodeByte ctxInMessage 0b10000001#8 = .noteOff 0b0001#4 ∧ decodeByte ctxInMessage 0b10010010#8 = .noteOn 0b0010#4 ∧
    decodeByte ctxInMessage 0b10100011#8 = .polyPressure 0b0011#4 ∧ decodeByte ctxInMessage 0b10110100#8 = .controlChange 0b0100#4 ∧
    decodeByte ctxInMessage 0b11001000#8 = .programChange 0b1000#4 ∧ decodeByte ctxInMessage 0b11010101#8 = .channelPressure 0b0101#4 ∧
    decodeByte ctxInMessage 0b11101111#8 = .pitchBend 0b1111#4 := by decide

theorem test_decode_sysex :
    decodeByte ctxRunning 0b11110000#8 = .sysexStart ∧ decodeByte ctxSysex 0b11110000#8 = .sysexByte 0b11110000#8 ∧
    decodeByte ctxSysex 0b00000001#8 = .sysexByte 0b00000001#8 ∧ decodeByte ctxSysex 0b11110111#8 = .eox ∧
    decodeByte ctxRunning 0b11110111#8 = .eoxStray := by decide

theorem test_decode_system_common :
    decodeByte ctxRunning 0b11110001#8 = .scF1 ∧ decodeByte ctxRunning 0b11110010#8 = .scF2 ∧
    decodeByte ctxRunning 0b11110011#8 = .scF3 ∧ decodeByte ctxRunning 0b11110100#8 = .scF4 ∧
    decodeByte ctxRunning 0b11110101#8 = .scF5 ∧ decodeByte ctxRunning 0b11110110#8 = .scF6 := by decide

theorem test_decode_realtime :
    decodeByte ctxSysex 0b11111000#8 = .rtF8 ∧ decodeByte ctxInMessage 0b11111001#8 = .rtF9 ∧
    decodeByte ctxRunning 0b11111010#8 = .rtFA ∧ decodeByte ctxSysex 0b11111011#8 = .rtFB ∧
    decodeByte ctxInMessage 0b11111100#8 = .rtFC ∧ decodeByte ctxRunning 0b11111101#8 = .rtFD ∧
    decodeByte ctxSysex 0b11111110#8 = .rtFE := by decide

theorem test_decode_system_reset :
    decodeByte ctxSysex 0b11111111#8 = .systemReset ∧ decodeByte ctxInMessage 0b11111111#8 = .systemReset := by decide

theorem test_decodeTableWord : decodeTableWord 8 0x95 = some (.noteOn 5#4) ∧ decodeTableWord 8 0x3C = some (.dataNoStatus 0x3C#7) := by
  decide

/-! ### One step of each instruction -/

-- Vector P5: after `90 3C 40`, the byte 3E.
theorem test_dataRunningStatus_three :
    (after (exec (.dataRunningStatus 0x3E#7) (withRs 0x90#8))).buf = #v[0x90#8, 0x3E#8, 0x00#8] ∧
    (after (exec (.dataRunningStatus 0x3E#7) (withRs 0x90#8))).cnt = 2#2 := by decide
-- Vector P26: after `C0 01`, the byte 02.
theorem test_dataRunningStatus_two :
    (after (exec (.dataRunningStatus 0x02#7) (withRs 0xC0#8))).mode = #v[0x02#8, 0x00#8, 0x00#8, 0x00#8] ∧
    (after (exec (.dataRunningStatus 0x02#7) (withRs 0xC0#8))).accCode = 1#3 := by decide
-- Vector P3.
theorem test_dataNoStatus : after (exec (.dataNoStatus 0x3C#7) State.reset) = State.reset := by decide +kernel
-- Vector P2: `90`, then 3C.
theorem test_dataContinue_waits : (after (exec (.dataContinue 0x3C#7) (inMessage 0x90#8 0x00#8 1#2))).cnt = 2#2 := by decide
-- Source example S10: `90 00 7F`.
theorem test_dataContinue_dispatches :
    (after (exec (.dataContinue 0x7F#7) (inMessage 0x90#8 0x00#8 2#2))).fb.read 0 = 0xFF#8 ∧
    (after (exec (.dataContinue 0x7F#7) (inMessage 0x90#8 0x00#8 2#2))).cnt = 0#2 := by decide
-- Vector P9.
theorem test_sysexByte : after (exec (.sysexByte 0x90#8) inSysex) = inSysex := by decide +kernel
-- Vector P15: `90 3C 80`.
theorem test_noteOff_status :
    (after (exec (.noteOff 0#4) (inMessage 0x90#8 0x3C#8 2#2))).rs = 0x80#8 ∧
    (after (exec (.noteOff 0#4) (inMessage 0x90#8 0x3C#8 2#2))).cnt = 1#2 := by decide
-- Source example S5: `C0 01 80 0A 40`, its last byte.
theorem test_noteOff_message :
    (after (exec (.dataContinue 0x40#7)
      { inMessage 0x80#8 0x0A#8 2#2 with mode := #v[0x01#8, 0x00#8, 0x00#8, 0x00#8] })).fb.read 10 = 0x80#8 := by decide
-- Vector P16: `90 3C 91`.
theorem test_noteOn_status :
    (after (exec (.noteOn 1#4) (inMessage 0x90#8 0x3C#8 2#2))).rs = 0x91#8 ∧
    (after (exec (.noteOn 1#4) (inMessage 0x90#8 0x3C#8 2#2))).buf[0] = 0x91#8 := by decide
-- Vector P16, its last byte: `91 3C 40`.
theorem test_noteOn_message :
    (after (exec (.dataContinue 0x40#7) (inMessage 0x91#8 0x3C#8 2#2))).fb.read 188 = 0x81#8 := by decide
theorem test_polyPressure_status : (after (exec (.polyPressure 2#4) State.reset)).rs = 0xA2#8 := by decide
-- R156, the example: `C2 03 A2 00 7F`, its last byte.
theorem test_polyPressure_message :
    (after (exec (.dataContinue 0x7F#7)
      { inMessage 0xA2#8 0x00#8 2#2 with mode := #v[0x00#8, 0x00#8, 0x03#8, 0x00#8] })).fb.read 256 = 0xFE#8 := by decide
theorem test_controlChange_status : (after (exec (.controlChange 0#4) State.reset)).rs = 0xB0#8 := by decide
-- R157, the example: `B0 07 64`, its last byte.
theorem test_controlChange_message : (after (exec (.dataContinue 0x64#7) (inMessage 0xB0#8 0x07#8 2#2))).fb = [] := by decide
theorem test_programChange_status : (after (exec (.programChange 3#4) State.reset)).rs = 0xC3#8 := by decide
-- Source example S2: `C0 01 C3 02`, its last byte.
theorem test_programChange_message :
    (after (exec (.dataContinue 0x02#7)
      { inMessage 0xC3#8 0x00#8 1#2 with mode := #v[0x01#8, 0x00#8, 0x00#8, 0x00#8], accCode := 1#3 })).accCode = 4#3 := by decide
theorem test_channelPressure_status : (after (exec (.channelPressure 0#4) State.reset)).rs = 0xD0#8 := by decide
-- R160, the example: `D0 10`, its last byte.
theorem test_channelPressure_message : (after (exec (.dataContinue 0x10#7) (inMessage 0xD0#8 0x00#8 1#2))).cnt = 0#2 := by decide
theorem test_pitchBend_status : (after (exec (.pitchBend 0xF#4) State.reset)).rs = 0xEF#8 := by decide
-- R161, the example: `E0 00 40`, its last byte.
theorem test_pitchBend_message : (after (exec (.dataContinue 0x40#7) (inMessage 0xE0#8 0x00#8 2#2))).fb = [] := by decide
-- Vector P14: `90 3C F0`.
theorem test_sysexStart :
    (after (exec .sysexStart (inMessage 0x90#8 0x3C#8 2#2))).cnt = 0#2 ∧
    (after (exec .sysexStart (inMessage 0x90#8 0x3C#8 2#2))).sysex = true := by decide
-- Vector P22: F1 after `90 3C 40` keeps the running status.
theorem test_scF1 : (after (exec .scF1 (withRs 0x90#8))).rs = 0x90#8 ∧ (after (exec .scF1 (withRs 0x90#8))).cnt = 1#2 := by decide
-- Vector P24.
theorem test_scF2 : (after (exec .scF2 State.reset)).buf[0] = 0xF2#8 ∧ (after (exec .scF2 State.reset)).cnt = 1#2 := by decide
-- Vector P25: `F3 05`, its last byte.
theorem test_scF3 : (after (exec .scF3 State.reset)).cnt = 1#2 ∧
    (after (exec (.dataContinue 0x05#7) (inMessage 0xF3#8 0x00#8 1#2))).cnt = 0#2 := by decide
-- Vector P19: `90 3C F4`.
theorem test_scF4 : (after (exec .scF4 (inMessage 0x90#8 0x3C#8 2#2))).cnt = 0#2 ∧
    (after (exec .scF4 (inMessage 0x90#8 0x3C#8 2#2))).rs = 0x90#8 := by decide
-- Vector P20.
theorem test_scF5 : (after (exec .scF5 State.reset)).cnt = 0#2 := by decide
-- Vector P21: F6 after `90 3C 40`.
theorem test_scF6 : (after (exec .scF6 (withRs 0x90#8))).rs = 0x90#8 ∧ (after (exec .scF6 (withRs 0x90#8))).cnt = 0#2 := by decide
-- Vector P13: F7 inside SysEx.
theorem test_eox : (after (exec .eox inSysex)).sysex = false ∧ (after (exec .eox inSysex)).rs = 0x90#8 := by decide
-- Vector P17: `90 F7`.
theorem test_eoxStray : (after (exec .eoxStray (inMessage 0x90#8 0x00#8 1#2))).cnt = 0#2 := by decide
-- Vector P7.
theorem test_rtF8 : after (exec .rtF8 inSysex) = inSysex := by decide +kernel
theorem test_rtF9 : after (exec .rtF9 State.reset) = State.reset := by decide +kernel
theorem test_rtFA : after (exec .rtFA inSysex) = inSysex := by decide +kernel
theorem test_rtFB : after (exec .rtFB (inMessage 0x90#8 0x3C#8 2#2)) = inMessage 0x90#8 0x3C#8 2#2 := by decide +kernel
theorem test_rtFC : after (exec .rtFC (withRs 0xC1#8)) = withRs 0xC1#8 := by decide +kernel
theorem test_rtFD : after (exec .rtFD (inMessage 0x90#8 0x3C#8 2#2)) = inMessage 0x90#8 0x3C#8 2#2 := by decide +kernel
theorem test_rtFE : after (exec .rtFE State.reset) = State.reset := by decide +kernel
-- R111, the example: `C3 02 93 05 10 FF`, its last byte.
theorem test_systemReset :
    (after (exec .systemReset { withRs 0x93#8 with mode := #v[0x00#8, 0x00#8, 0x00#8, 0x02#8], accCode := 4#3, fb := [(389, 0x21#8)] }))
      = { State.reset with hacc := [0#16], resetEvents := 1 } := by decide +kernel

/-! ### The Transmitter, the step, the frame buffer -/

-- Source example S7, its first cell: a cycle start with the count 256.
theorem test_cycle_start :
    (after (txStep { State.reset with accCode := 2#3 })).latched = 256#10 ∧ (after (txStep { State.reset with accCode := 2#3 })).line = false ∧
    (after (txStep { State.reset with accCode := 2#3 })).indGroup = #v[true, true, false, false] := by decide
-- R187: the start bit of slot 10 holding 0x81.
theorem test_start_bit : (after (txStep { atSymbol 11#10 128#10 with fb := [(10, 0x81#8)] })).sh = 0x81#8 := by decide
-- R95: `BYTE(0x81)` is 0 1000 0001 11 in cells.
theorem test_framedByte :
    framedByte 0x81#8 = [false, true, false, false, false, false, false, false, true, true, true] := by decide
-- R194: `C(128)`, `C(256)` and `C(512)` at the defaults.
theorem test_cycleLength : cycleLength Config.defaults 128 = 1466 ∧ cycleLength Config.defaults 256 = 2874 ∧
    cycleLength Config.defaults 512 = 5690 := by decide
-- R68: a high byte from 512 and a low byte from 128.
theorem test_tornCount : tornCount 512#16 128#16 = 640#10 := by decide
-- R93: `ZONE_MODE 3, 2` and a SysEx form.
theorem test_form_bytes : (Form.zoneMode 3#2 2#7).bytes = [0xC3#8, 0x02#8] ∧ (Form.sysex [0x90#8]).bytes = [0xF0#8, 0x90#8, 0xF7#8] := by
  decide
theorem test_memory_write_zero_unlists : Memory.write [(10, 0x81#8), (11, 0x05#8)] 10 0x00#8 = [(11, 0x05#8)] := by decide
theorem test_withFetchWord : (after (step (State.reset.withFetchWord 8 0x95))).rs = 0x95#8 ∧
    (after (step (State.reset.withFetchWord 8 0x95))).rxFull = false := by decide

theorem test_reset_parserInv : ParserInv State.reset := by decide +kernel
theorem test_reset_tableInv : TableInv State.reset := ⟨by decide, by decide, by decide, by decide, by simp [State.reset, State.powerOn]⟩
theorem test_reset_txInv : TxInv State.reset := ⟨by decide, by decide⟩
theorem test_reset_inv : Inv State.reset := ⟨test_reset_parserInv, test_reset_tableInv, ⟨List.Pairwise.nil, by decide⟩, test_reset_txInv⟩

/-! ### Witnesses: states and operands that meet the hypotheses of the obligations -/

theorem witness_DecodeOfEncodedInstr : (Instr.sysexByte 0xF6#8).wellFormed = true ∧ (Instr.sysexByte 0xF6#8).appliesIn ctxSysex = true := by
  decide
theorem witness_StepRunsDecodedInstr : ∃ s : State, s.cfg.legal = true ∧ nextMove s = .parser ∧ s.rxFull = true ∧
    decode (decodeCtx s) [s.rxHold] = .ok (.noteOn 15#4, []) := ⟨placeByte 0x9F#8 State.reset, rfl, rfl, rfl, rfl⟩
theorem witness_StepOfOtherMoves_agenda : ∃ s : State, s.agenda = [.transmitter] := ⟨atSymbol 0#10 128#10, rfl⟩
theorem witness_StepOfOtherMoves_deliver : ∃ s : State, s.cfg.legal = true ∧ nextMove s = .deliver 0x90#8 :=
  ⟨{ State.reset with agenda := [.deliver 0x90#8] }, rfl, rfl⟩
theorem witness_StepOfOtherMoves_empty : ∃ s : State, s.cfg.legal = true ∧ nextMove s = .parser ∧ s.rxFull = false :=
  ⟨{ State.reset with agenda := [.parser] }, rfl, rfl, rfl⟩
theorem witness_StepOfOtherMoves_transmitter : ∃ s : State, s.cfg.legal = true ∧ nextMove s = .transmitter :=
  ⟨atSymbol 0#10 128#10, rfl, rfl⟩
theorem witness_ConfigBelowMinimaRefused : Config.legal ⟨22, 2, 0, 0, false⟩ = false ∧ Config.legal ⟨23, 1, 0, 0, false⟩ = false ∧
    Config.legal ⟨23, 2, 0, 0, true⟩ = true := by decide
theorem witness_RealTimeBytesIgnored : ∃ s t : State, s.rxFull = true ∧ isRealTime s.rxHold = true ∧ s.rxHold = 0xF8#8 ∧
    t.rxFull = true ∧ isRealTime t.rxHold = true ∧ t.rxHold = 0xFE#8 :=
  ⟨deliver 0xF8#8 inSysex, deliver 0xFE#8 State.reset, rfl, rfl, rfl, rfl, rfl, rfl⟩
theorem witness_SystemResetEffect_inflight : ∃ s t : State, exec .systemReset s = .next t ∧ t.ph = .frm ∧ cellsDone t = 0 ∧
    1 ≤ t.sym.toNat ∧ t.sym.toNat ≤ 512 ∧ t.sym = 512#10 := ⟨atSymbol 512#10 512#10, _, rfl, by decide⟩
theorem witness_ResetThenTransmitterIdles : ∃ s : State, s.ph = .cstart ∧ s.cfg.accTear = false ∧ s.accCode = 4#3 :=
  ⟨{ State.reset with accCode := 4#3 }, rfl, rfl, rfl⟩
theorem witness_SysexContentDiscarded : ∃ (s : State) (b : Byte), s.sysex = true ∧ b.toNat < 0xF8 ∧ b ≠ 0xF7#8 :=
  ⟨inSysex, 0xF6#8, by decide⟩
theorem witness_SysexContentDiscarded_bytes : ∃ (s : State) (b : Byte) (bs : List Byte), s.sysex = true ∧
    ∀ x ∈ b :: bs, x ≠ 0xF7#8 ∧ x ≠ 0xFF#8 := ⟨inSysex, 0x90#8, [0xF0#8, 0xFE#8], rfl, by simp⟩
theorem witness_EoxLeavesSysex : ∃ s : State, ParserInv s ∧ s.sysex = true ∧ s.rs ≠ 0#8 := ⟨inSysex, by decide +kernel, rfl, by decide⟩
theorem witness_SysexStartEntersSkip : ∃ ctx : DecodeCtx, ctx.sysex = false ∧ ctx.cnt = 1#2 := ⟨ctxInMessage, rfl, rfl⟩
theorem witness_SysexTransparency : ∃ (s : State) (bs : List Byte), s.sysex = false ∧ s.cnt = 2#2 ∧ ∀ b ∈ bs, b ≠ 0xF7#8 ∧ b ≠ 0xFF#8 :=
  ⟨inMessage 0x90#8 0x3C#8 2#2, [0xF0#8, 0x90#8, 0xF8#8, 0x01#8], rfl, rfl, by simp⟩
theorem witness_RunningStatusDataByte : ∃ s t : State, s.rs ≠ 0#8 ∧ msgLen s.rs = some 3 ∧ t.rs ≠ 0#8 ∧ msgLen t.rs = some 2 :=
  ⟨withRs 0xEF#8, withRs 0xC0#8, by decide⟩
theorem witness_ContinuingDataByte_more : ∃ s : State, ParserInv s ∧ s.cnt = 1#2 ∧ msgLen s.buf[0] = some 3 :=
  ⟨inMessage 0x90#8 0x00#8 1#2, by decide +kernel, rfl, rfl⟩
theorem witness_ContinuingDataByte_last : ∃ s t : State, ParserInv s ∧ s.cnt = 2#2 ∧ msgLen s.buf[0] = some 3 ∧
    ParserInv t ∧ t.cnt = 1#2 ∧ msgLen t.buf[0] = some 2 :=
  ⟨inMessage 0x90#8 0x3C#8 2#2, inMessage 0xC0#8 0x00#8 1#2, by decide +kernel, rfl, rfl, by decide +kernel, rfl, rfl⟩
theorem witness_RunningStatusRepeatsStatus : ∃ s t : State, isChannelVoice s.rs = true ∧ msgLen s.rs = some 3 ∧
    isChannelVoice t.rs = true ∧ msgLen t.rs = some 2 := ⟨withRs 0xEF#8, withRs 0xDF#8, by decide⟩
theorem witness_ControlChangeMessage : ∃ (s : State) (c : Chan), s.rs = 0xB#4 ++ c := ⟨withRs 0xBF#8, 15#4, by decide⟩
theorem witness_ChannelPressureMessage : ∃ (s : State) (c : Chan), s.rs = 0xD#4 ++ c := ⟨withRs 0xD0#8, 0#4, by decide⟩

/-- A Parser step on the byte `b` in the state `s`. -/
def takes (b : Byte) (s : State) : State := placeByte b s

theorem witness_OnlyParserWritesSlots : ∃ s t : State, step s = .next t ∧ t.fb.read 511 ≠ s.fb.read 511 :=
  ⟨takes 0x00#8 (inMessage 0x93#8 0x7F#8 2#2), _, rfl, by decide⟩
theorem witness_OnlyParserWritesSlots_reset : ∃ s t : State, step s = .next t ∧ t.fb.read 0 ≠ s.fb.read 0 :=
  ⟨takes 0xFF#8 { State.reset with fb := [(0, 0x81#8)] }, _, rfl, by decide⟩
theorem witness_OnlyProgramChangeWritesTables : ∃ s t : State, step s = .next t ∧ t.mode ≠ s.mode ∧ t.accCode ≠ s.accCode ∧ s.cnt = 0#2 :=
  ⟨takes 0x01#8 (withRs 0xC3#8), _, rfl, by decide⟩
theorem witness_OnlyProgramChangeWritesTables_explicit : ∃ s t : State, step s = .next t ∧ t.mode ≠ s.mode ∧ s.cnt = 1#2 :=
  ⟨takes 0x7F#8 (inMessage 0xC0#8 0x00#8 1#2), _, rfl, by decide⟩
theorem witness_OnlyProgramChangeWritesTables_reset : ∃ s t : State, step s = .next t ∧ t.accCode ≠ s.accCode ∧ s.rxHold = 0xFF#8 :=
  ⟨takes 0xFF#8 { State.reset with accCode := 4#3 }, _, rfl, by decide⟩
theorem witness_OnlyChannelVoiceWritesRunningStatus : ∃ s t : State, step s = .next t ∧ t.rs ≠ s.rs ∧ s.rxHold = 0xEF#8 :=
  ⟨takes 0xEF#8 State.reset, _, rfl, by decide⟩
theorem witness_OnlyChannelVoiceWritesRunningStatus_reset : ∃ s t : State, step s = .next t ∧ t.rs ≠ s.rs ∧ s.rxHold = 0xFF#8 :=
  ⟨takes 0xFF#8 (withRs 0x80#8), _, rfl, by decide⟩
theorem witness_OneWriterPerRegister : ∃ s t : State, txStep s = .next t ∧ t.line ≠ s.line := ⟨atSymbol 1#10 128#10, _, rfl, by decide⟩
theorem witness_NonDispatchingInstrsFrame : ∃ s t : State, exec .eox s = .next t ∧ t ≠ s := ⟨inSysex, _, rfl, by decide⟩
theorem witness_TransmitterReadsCountAndSlots : ∃ s t : State, s ≠ t ∧ SameTx s t ∧ t.cfg = s.cfg ∧ s.cfg.accTear = false ∧
    t.accCode = s.accCode ∧ SameSlots s t :=
  ⟨atSymbol 5#10 128#10, { atSymbol 5#10 128#10 with rs := 0x90#8 }, by decide, by decide, rfl, rfl, rfl, fun _ => rfl⟩
theorem witness_ParserReadsNoTransmitterState : ∃ s t : State, s ≠ t ∧ SameParser s t ∧ SameTables s t ∧ SameSlots s t :=
  ⟨State.reset, atSymbol 5#10 128#10, by decide, by decide, by decide, fun _ => rfl⟩
theorem witness_ResetEventOncePerResetByte : ∃ s t u v : State, step s = .next t ∧ t.resetEvents = 1 ∧ step u = .next v ∧ v.resetEvents = 0 :=
  ⟨takes 0xFF#8 State.reset, _, takes 0xFE#8 State.reset, _, rfl, rfl, rfl, rfl⟩
/-- A tearing configuration in which the count has changed since the previous Transmitter step, its values being `vs`. -/
def torn (vs : List (BitVec 16)) : State :=
  { State.powerOn tearing with mode := #v[0x01#8, 0x00#8, 0x00#8, 0x00#8], accCode := 1#3, hacc := vs }

theorem witness_CycleStartReadsCount : ∃ s t u : State, (s.cfg.legal = true ∧ s.ph = .cstart ∧ s.cfg.accTear = false ∧ s.accCode = 0#3) ∧
    (t.cfg.legal = true ∧ t.ph = .cstart ∧ t.cfg.accTear = false ∧ t.accCode = 4#3) ∧
    (u.cfg.legal = true ∧ u.ph = .cstart ∧ u.cfg.accTear = true) :=
  ⟨State.reset, { State.reset with accCode := 4#3 }, torn [128#16], ⟨rfl, rfl, rfl, rfl⟩, ⟨rfl, rfl, rfl, rfl⟩, rfl, rfl, rfl⟩
theorem witness_CycleStartReadsCount_idle : ∃ s t : State, txStep s = .next t ∧ t.latched = 0#10 ∧ s.ph = .cstart :=
  ⟨State.reset, _, rfl, rfl, rfl⟩
theorem witness_CycleStartReadsCount_break : ∃ s t : State, txStep s = .next t ∧ t.latched = 512#10 ∧ s.ph = .cstart :=
  ⟨{ State.reset with accCode := 4#3 }, _, rfl, by decide, rfl⟩
theorem witness_TornCountComesFromHacc : ∃ s : State, s.cfg.accTear = true ∧ s.cfg.legal = true ∧ s.ph = .cstart ∧ TableInv s ∧
    s.hacc.length = 2 := ⟨torn [128#16, 512#16], rfl, rfl, rfl, ⟨by decide, by decide, by decide, by decide, by simp [torn]⟩, rfl⟩
-- Whatever is drawn, `Hacc = {0}` gives 0 and `Hacc = {128}` gives 128.
theorem witness_TornCountComesFromHacc_idle : ∃ s t : State, s.cfg.accTear = true ∧ s.ph = .cstart ∧ TableInv s ∧ txStep s = .next t ∧
    t.latched = 0#10 := by
  refine ⟨State.powerOn tearing, _, rfl, rfl, ⟨by decide, by decide, by decide, by decide, by simp [State.powerOn]⟩, rfl, ?_⟩
  simp [cstartStep, readCount, pick, State.powerOn, tearing, tornCount, Nat.mod_one, accWord]
theorem witness_TornCountComesFromHacc_break : ∃ s : State, s.cfg.accTear = true ∧ s.ph = .cstart ∧ TableInv s ∧ readCount s = 128#10 := by
  refine ⟨torn [128#16], rfl, rfl, ⟨by decide, by decide, by decide, by decide, by simp [torn]⟩, ?_⟩
  simp [readCount, pick, torn, State.powerOn, tearing, tornCount, Nat.mod_one]
theorem witness_OnlyCycleStartWritesIndicators : ∃ s t : State, s.ph ≠ .cstart ∧ txStep s = .next t ∧ s.indGroup ≠ groupsOn s.latched :=
  ⟨atSymbol 1#10 128#10, _, by decide, rfl, by decide⟩
theorem witness_SlotStartBitOffset : ∃ (s : State) (j : Nat), s.cfg.legal = true ∧ s.ph = .cstart ∧ j < (readCount s).toNat ∧ j < 512 ∧ j = 511 :=
  ⟨{ State.reset with accCode := 4#3 }, 511, rfl, rfl, by decide, by decide, rfl⟩
-- R194: slot `j`'s start bit is at offset `58 + 11 · j` at the defaults.
theorem test_slotOffset : slotOffset Config.defaults 0 = 58 ∧ slotOffset Config.defaults 127 = 1455 := by decide
-- R33: the counter is `k` itself up to 65535 and goes on past it.
theorem test_cellCounter_overflow : (setCells 65535 State.reset).k = 65535#16 ∧ (setCells 65535 State.reset).kOver = 0 ∧
    (setCells 65536 State.reset).k = 0#16 ∧ cellsDone (setCells 65536 State.reset) = 65536 := by decide
theorem witness_StartBitLatchesLiveByte : ∃ s t u v : State,
    (s.ph = .frm ∧ cellsDone s = 0 ∧ s.sym = 0#10) ∧ (t.ph = .frm ∧ cellsDone t = 0 ∧ t.sym.toNat = 1) ∧
    (u.ph = .frm ∧ cellsDone u = 0 ∧ u.sym.toNat = 512) ∧ (v.ph = .frm ∧ cellsDone v = 0 ∧ v.sym.toNat = 513) :=
  ⟨atSymbol 0#10 128#10, atSymbol 1#10 128#10, atSymbol 512#10 512#10, atSymbol 513#10 640#10, by decide⟩
theorem witness_FramedByteIsElevenCells : ∃ s t : State, (s.ph = .frm ∧ cellsDone s = 0 ∧ symbolByte s = .ok 0x00#8 ∧ s.sym ≠ s.latched) ∧
    (t.ph = .frm ∧ cellsDone t = 0 ∧ symbolByte t = .ok 0x00#8 ∧ t.sym = t.latched) :=
  ⟨atSymbol 0#10 128#10, atSymbol 512#10 512#10, ⟨rfl, rfl, rfl, by decide⟩, ⟨rfl, rfl, rfl, rfl⟩⟩
/-- The same state in another phase, at cell `k`, with the byte 0x82 latched. -/
def atCell (ph : Phase) (k : BitVec 16) : State := { atSymbol 5#10 128#10 with ph := ph, k := k, sh := 0x82#8 }

theorem witness_CellLevelAndNextPhase_brk : ∃ s t : State, txStep s = .next t ∧ s.ph = .brk ∧
    cellsDone s + 1 = phaseLength s.cfg s.ph ∧ t.ph = .mab := ⟨atCell .brk 43#16, _, rfl, rfl, rfl, rfl⟩
theorem witness_CellLevelAndNextPhase_mab : ∃ s t : State, txStep s = .next t ∧ s.ph = .mab ∧
    cellsDone s + 1 ≠ phaseLength s.cfg s.ph ∧ t.ph = .mab := ⟨atCell .mab 1#16, _, rfl, rfl, by decide, rfl⟩
theorem witness_CellLevelAndNextPhase_marks : ∃ s t u v : State, txStep s = .next t ∧ s.ph = .mtbs ∧ t.ph = .frm ∧
    txStep u = .next v ∧ u.ph = .mbb ∧ v.ph = .cstart :=
  ⟨{ atCell .mtbs 0#16 with cfg := ⟨44, 3, 1, 1, false⟩ }, _, { atCell .mbb 0#16 with cfg := ⟨44, 3, 1, 1, false⟩ }, _, rfl, rfl, rfl, rfl, rfl, rfl⟩
theorem witness_CellLevelAndNextPhase_idle : ∃ s t : State, txStep s = .next t ∧ s.ph = .cstart ∧ readCount s = 0#10 :=
  ⟨State.reset, _, rfl, rfl, by decide⟩
theorem witness_CellLevelAndNextPhase_lastSlot : ∃ s t u v : State, txStep s = .next t ∧ s.sym = s.latched ∧ t.ph = .cstart ∧
    txStep u = .next v ∧ u.sym ≠ u.latched ∧ v.ph = .frm ∧ v.sym = 6#10 :=
  ⟨{ atCell .frm 10#16 with latched := 5#10 }, _, atCell .frm 10#16, _, rfl, rfl, rfl, rfl, by decide, rfl, rfl⟩
-- R188 and R189: 0x82 has bits 1 and 7 set, whatever the slot holds now; cells 9 and 10 are stop bits.
theorem witness_CellLevelAndNextPhase_frm :
    [0#16, 1#16, 2#16, 8#16, 9#16, 10#16].map (fun k => (after (txStep { atCell .frm k with fb := [(4, 0x55#8)] })).line) =
      [false, false, true, true, true, true] := by decide
theorem witness_BreakThenMarkAfterBreak : ∃ s : State, s.cfg.legal = true ∧ s.ph = .cstart ∧ readCount s ≠ 0#10 :=
  ⟨{ State.reset with accCode := 1#3 }, rfl, rfl, by decide⟩
theorem witness_CycleWaveform : ∃ s : State, s.cfg.legal = true ∧ s.ph = .cstart ∧ (readCount s).toNat = 512 :=
  ⟨{ State.reset with accCode := 4#3 }, rfl, rfl, by decide⟩
theorem witness_CycleWaveform_torn : ∃ s : State, s.cfg.legal = true ∧ s.ph = .cstart ∧ s.cfg.accTear = true ∧ (readCount s).toNat = 128 := by
  refine ⟨torn [128#16], rfl, rfl, rfl, ?_⟩
  simp [readCount, pick, torn, State.powerOn, tearing, tornCount, Nat.mod_one]
theorem witness_CycleLengthCountsDown_in : ∃ s t : State, s.cfg.legal = true ∧ TxInv s ∧ txStep s = .next t ∧ s.ph ≠ .cstart :=
  ⟨{ atSymbol 512#10 512#10 with k := 10#16 }, _, rfl, ⟨by decide, by decide⟩, rfl, by decide⟩
theorem witness_CycleLengthCountsDown_start : ∃ s t : State, s.cfg.legal = true ∧ TxInv s ∧ txStep s = .next t ∧ s.ph = .cstart ∧
    t.latched ≠ 0#10 := ⟨{ State.reset with accCode := 1#3 }, _, rfl, ⟨by decide, by decide⟩, rfl, rfl, by decide⟩
theorem witness_InputNeverCancelsCycle : ∃ s t : State, step s = .next t ∧ nextMove s ≠ .transmitter ∧ s.ph = .frm :=
  ⟨takes 0xFF#8 (atSymbol 5#10 128#10), _, rfl, by decide, rfl⟩
theorem witness_StepKeepsInv : ∃ s t : State, Inv s ∧ step s = .next t :=
  ⟨takes 0x90#8 State.reset, _, ⟨by decide +kernel, test_reset_tableInv, ⟨List.Pairwise.nil, by decide⟩, test_reset_txInv⟩, rfl⟩
theorem witness_NoFaultWithoutTear : ∃ s : State, Inv s ∧ s.cfg.legal = true ∧ s.cfg.accTear = false := ⟨State.reset, test_reset_inv, rfl, rfl⟩
theorem witness_OnlyFaultIsSlot512 : ∃ s : State, Inv s ∧ s.cfg.legal = true ∧ step s = .fault (.slotIndexOutOfRange 512) :=
  ⟨{ atSymbol 513#10 640#10 with cfg := tearing },
    ⟨by decide +kernel, ⟨by decide, by decide, by decide, by decide, by simp [atSymbol, State.reset, State.powerOn]⟩,
      ⟨List.Pairwise.nil, by decide⟩, by decide, by decide⟩, rfl, rfl⟩
theorem witness_EveryByteIsConsumed : ∃ s : State, s.cfg.legal = true ∧ nextMove s = .parser ∧ s.rxFull = true :=
  ⟨takes 0xFF#8 inSysex, rfl, rfl, rfl⟩
theorem witness_CountStaysMultipleOf128 : ∃ s t : State, s.accCode.toNat ≤ 4 ∧ step s = .next t ∧ t.accCode ≠ s.accCode :=
  ⟨takes 0x00#8 { inMessage 0xC3#8 0x00#8 1#2 with accCode := 4#3 }, _, by decide, rfl, by decide⟩
theorem witness_CellCounterFits16Bits : ∃ s : State, Inv s ∧ s.cfg.breakBits ≤ 65535 ∧ s.cfg.mabBits ≤ 65535 ∧
    s.cfg.mtbsBits ≤ 65535 ∧ s.cfg.mbbBits ≤ 65535 ∧ s.cfg.mbbBits = 65535 ∧ s.k = 65534#16 :=
  ⟨{ State.powerOn ⟨44, 3, 0, 65535, false⟩ with ph := .mbb, k := 65534#16, sym := 128#10, latched := 128#10 },
    ⟨by decide +kernel, ⟨by decide, by decide, by decide, by decide, by simp [State.powerOn]⟩, ⟨List.Pairwise.nil, by decide⟩,
      by decide, by decide⟩, by decide⟩

end Sys2Proof.Tests
end

section
/-! ### What a step can do to the shared tables

`exec`, `dispatch` and `step` are inverted once; every fact about the Zone Mode Table and the count follows from these cases. -/

namespace Sys2Proof.Machine

/-- Only the parser's registers differ. -/
abbrev OnlyParser (s t : State) : Prop := t = { s with rs := t.rs, buf := t.buf, cnt := t.cnt, sysex := t.sysex }

/-- Every instruction answers, in one of three ways: it writes parser registers and nothing else, or it writes some and then makes
the completion test of R134, or it is the System Reset (R111). -/
theorem exec_answers (i : Instr) (s : State) :
    ∃ t, exec i s = .next t ∧
      (OnlyParser s t ∨ (∃ u, OnlyParser s u ∧ t = completeIfFull u) ∨
        i = .systemReset ∧ t = signalReset (clearSlots (resetTables (resetParser s)))) := by
  cases i
  case dataNoStatus | sysexByte | sysexStart | eox | eoxStray | rtF8 | rtF9 | rtFA | rtFB | rtFC | rtFD | rtFE =>
    exact ⟨_, rfl, .inl rfl⟩
  case dataRunningStatus | dataContinue | noteOff | noteOn | polyPressure | controlChange | programChange | channelPressure |
      pitchBend | scF1 | scF2 | scF3 | scF4 | scF5 | scF6 =>
    exact ⟨_, rfl, .inr (.inl ⟨_, rfl, rfl⟩)⟩
  case systemReset => exact ⟨_, rfl, .inr (.inr ⟨rfl, rfl⟩)⟩

/-- The completion test does nothing, or it dispatches a message and empties the buffer (R134). -/
theorem completeIfFull_cases (s : State) :
    completeIfFull s = s ∨ ∃ m, completeIfFull s = setCnt 0#2 (dispatch m s) := by
  unfold completeIfFull
  split_ifs
  · exact .inr ⟨_, rfl⟩
  · exact .inl rfl

/-- Either the modes and the count are as before, or the count is the priority of the modes there are now (R159). -/
abbrev TablesKeptOrPrio (s t : State) : Prop := (t.mode = s.mode ∧ t.accCode = s.accCode) ∨ t.accCode = prio t.mode

theorem dispatch_tables (m : Msg) (s : State) : TablesKeptOrPrio s (dispatch m s) := by
  obtain h | ⟨z, note, v, on, h⟩ | ⟨z, prog, h⟩ := dispatch_cases m s <;> rw [h]
  · exact .inl ⟨rfl, rfl⟩
  · exact .inl ⟨rfl, rfl⟩
  · exact .inr rfl

theorem completeIfFull_tables (s : State) : TablesKeptOrPrio s (completeIfFull s) := by
  obtain h | ⟨m, h⟩ := completeIfFull_cases s <;> rw [h]
  · exact .inl ⟨rfl, rfl⟩
  · exact dispatch_tables m s

theorem exec_tables {i : Instr} {s t : State} (h : exec i s = .next t) : TablesKeptOrPrio s t := by
  obtain ⟨t', ht', hcases⟩ := exec_answers i s
  obtain rfl : t' = t := Host.Outcome.next.inj (ht'.symm.trans h)
  obtain hp | ⟨u, hu, rfl⟩ | ⟨-, rfl⟩ := hcases
  · rw [hp]; exact .inl ⟨rfl, rfl⟩
  · rw [hu]; exact completeIfFull_tables _
  · exact .inr (by decide : 0#3 = prio #v[0x00#8, 0x00#8, 0x00#8, 0x00#8])

/-- A step of any agent keeps the modes and the count, or leaves the count that the modes give (R61, R159). -/
theorem step_tables {s t : State} (h : step s = .next t) : TablesKeptOrPrio s t := by
  obtain ⟨-, ⟨b, -, rfl⟩ | ⟨-, -, hexec⟩ | ⟨-, -, rfl⟩ | ⟨-, htx⟩⟩ := step_cases h
  · exact .inl ⟨rfl, rfl⟩
  · exact exec_tables (s := consumeByte (takeMove s)) hexec
  · exact .inl ⟨rfl, rfl⟩
  · rw [txStep_onlyTx htx]; exact .inl ⟨rfl, rfl⟩

theorem step_accCode_le {s t : State} (hs : s.accCode.toNat ≤ 4) (h : step s = .next t) : t.accCode.toNat ≤ 4 := by
  obtain ⟨-, hkept⟩ | hprio := step_tables h
  · rwa [hkept]
  · rw [hprio]; exact prio_le t.mode

/-- Settles O59: a count is 128 times its code, and a step keeps the code or takes it from the priority scan, which ends at 4. -/
theorem countStaysMultipleOf128 : Obligations.CountStaysMultipleOf128 := by
  refine ⟨rfl, fun c hc => ⟨accCount_toNat c, ?_⟩, fun s t hs h => step_accCode_le hs h⟩
  rw [accCount_toNat]
  omega

end Sys2Proof.Machine
end

section
/-! ### The byte classes and the message length in numbers

Each class of R80 is a range of byte values, and the length of R84 depends on the type nibble alone below 0xF0. -/

namespace Sys2Proof

theorem isData_iff_bit7 {b : Byte} : isData b = true ↔ b.getLsbD 7 = false := by
  simp [isData, BitVec.msb_eq_getLsbD_last]

theorem isData_iff {b : Byte} : isData b = true ↔ b.toNat ≤ 0x7F := by
  simp only [isData, BitVec.msb_eq_decide, Bool.not_eq_true', decide_eq_false_iff_not]
  omega

theorem isChannelVoice_iff {b : Byte} : isChannelVoice b = true ↔ 0x80 ≤ b.toNat ∧ b.toNat ≤ 0xEF := by
  simp [isChannelVoice]

theorem isSystemCommon_iff {b : Byte} : isSystemCommon b = true ↔ 0xF0 ≤ b.toNat ∧ b.toNat ≤ 0xF7 := by
  simp [isSystemCommon]

theorem isRealTime_iff {b : Byte} : isRealTime b = true ↔ 0xF8 ≤ b.toNat ∧ b.toNat ≤ 0xFE := by
  simp [isRealTime]

theorem isSystemReset_iff {b : Byte} : isSystemReset b = true ↔ b.toNat = 0xFF := by
  simp [isSystemReset, ← BitVec.toNat_inj]

/-- The five ranges cover 0 to 255 and no two of them overlap, so of the answers to the five tests one is true (R80). -/
theorem byteClasses_count (b : Byte) :
    [isData b, isChannelVoice b, isSystemCommon b, isRealTime b, isSystemReset b].count true = 1 := by
  have hlt : b.toNat < 256 := b.isLt
  simp only [List.count_cons, List.count_nil, beq_iff_eq, isData_iff, isChannelVoice_iff, isSystemCommon_iff, isRealTime_iff,
    isSystemReset_iff]
  split_ifs <;> omega

/-- Settles O4: each class is a range of byte values, and every value is in one of the five ranges only. -/
theorem byteClassesPartition : Obligations.ByteClassesPartition := fun b =>
  ⟨byteClasses_count b, isData_iff_bit7, isData_iff, isChannelVoice_iff, isSystemCommon_iff, isRealTime_iff, isSystemReset_iff⟩

end Sys2Proof

namespace Sys2Proof.Machine

/-- A byte is its two nibbles (R81). -/
theorem toNat_eq_nibbles (b : Byte) : b.toNat = 16 * (statusType b).toNat + (statusChan b).toNat := by
  simp only [statusType, statusChan, BitVec.extractLsb'_toNat, Nat.shiftRight_eq_div_pow]
  omega

theorem systemCommonLen_eq_table (c : Chan) : systemCommonLen c = [0, 2, 3, 2, 1, 1, 1, 0][c.toNat]? := by
  revert c; decide

/-- The length by the value of the type nibble; the low nibble matters for type 0xF only (R84). -/
theorem msgLen_eq_of_statusType (s : Byte) : msgLen s =
    if 8 ≤ (statusType s).toNat ∧ (statusType s).toNat < 12 ∨ (statusType s).toNat = 14 then some 3
    else if 12 ≤ (statusType s).toNat ∧ (statusType s).toNat < 14 then some 2
    else if (statusType s).toNat = 15 then systemCommonLen (statusChan s)
    else none := by
  unfold msgLen
  generalize statusType s = t
  obtain ⟨n, hn⟩ := t
  interval_cases n <;> rfl

/-- Settles O5: the ranges of the status byte are those of its type nibble, and above 0xF0 the rest of the byte is the low nibble. -/
theorem messageLengthTable : Obligations.MessageLengthTable := by
  intro s
  have hs := toNat_eq_nibbles s
  have hchan : (statusChan s).toNat < 16 := (statusChan s).isLt
  have htype : (statusType s).toNat < 16 := (statusType s).isLt
  rw [msgLen_eq_of_statusType, systemCommonLen_eq_table]
  have hthree : (8 ≤ (statusType s).toNat ∧ (statusType s).toNat < 12 ∨ (statusType s).toNat = 14) ↔
      (0x80 ≤ s.toNat ∧ s.toNat < 0xC0 ∨ 0xE0 ≤ s.toNat ∧ s.toNat < 0xF0) := by omega
  have htwo : (12 ≤ (statusType s).toNat ∧ (statusType s).toNat < 14) ↔ (0xC0 ≤ s.toNat ∧ s.toNat < 0xE0) := by omega
  have hsystem : (statusType s).toNat = 15 ↔ 0xF0 ≤ s.toNat := by omega
  have hlow : 0xF0 ≤ s.toNat → s.toNat - 0xF0 = (statusChan s).toNat := by omega
  simp only [hthree, htwo, hsystem]
  split_ifs with _ _ h
  · rfl
  · rfl
  · rw [hlow h]
  · rfl

end Sys2Proof.Machine
end

section
/-! ### What one byte does to the parser

The decoder and the parser's operations on the bytes of 40_parser.md, sections 3, 4 and 7: an equation for each class of byte, from
which the claims about Real-Time bytes, SysEx content and data bytes are read off. -/

namespace Sys2Proof

/-- A byte from 0xF8 on is a Real-Time byte or the System Reset in every parser state (R110). -/
theorem decodeByte_of_ge {b : Byte} (h : 0xF8 ≤ b.toNat) (ctx : DecodeCtx) : decodeByte ctx b = decodeRealTime b := if_pos h

theorem decodeByte_sysexContent {ctx : DecodeCtx} {b : Byte} (hctx : ctx.sysex = true) (hlt : b.toNat < 0xF8) (h : b ≠ 0xF7#8) :
    decodeByte ctx b = .sysexByte b := by
  simp [decodeByte, hctx, h, hlt]

theorem decodeByte_eox {ctx : DecodeCtx} (hctx : ctx.sysex = true) : decodeByte ctx 0xF7#8 = .eox := by
  simp [decodeByte, hctx]

end Sys2Proof

namespace Sys2Proof.Machine

/-! #### Bytes that change nothing -/

/-- A byte 0xF8 to 0xFE has one of the seven Real-Time rows, and none of them has an effect (R112). -/
theorem exec_decodeRealTime {b : Byte} (h : isRealTime b = true) (s : State) : exec (decodeRealTime b) s = .next s := by
  have hrow : decodeRealTime b ∈ [Instr.rtF8, .rtF9, .rtFA, .rtFB, .rtFC, .rtFD, .rtFE] := by
    revert b; decide
  simp only [List.mem_cons, List.not_mem_nil, or_false] at hrow
  obtain hi | hi | hi | hi | hi | hi | hi := hrow <;> rw [hi] <;> rfl

/-- Inside SysEx every byte but 0xF7 and 0xFF is discarded, a Real-Time byte as such and any other as content (R112, R120). -/
theorem exec_decodeByte_inSysex {ctx : DecodeCtx} {b : Byte} (hctx : ctx.sysex = true) (heox : b ≠ 0xF7#8) (hreset : b ≠ 0xFF#8)
    (s : State) : exec (decodeByte ctx b) s = .next s := by
  by_cases hge : 0xF8 ≤ b.toNat
  · have hrt : isRealTime b = true := isRealTime_iff.mpr ⟨hge, by bv_omega⟩
    rw [decodeByte_of_ge hge]
    exact exec_decodeRealTime hrt s
  · rw [decodeByte_sysexContent hctx (by omega) heox]
    rfl

/-- A fed byte is executed in the state in which it is held and taken (R110). -/
theorem feedByte_eq (b : Byte) (s : State) :
    feedByte b s = exec (decodeByte (decodeCtx s) b) { s with rxHold := b, rxFull := false } :=
  parserStep_full rfl

theorem feedByte_inSysex {b : Byte} {s : State} (hs : s.sysex = true) (h : b ≠ 0xF7#8 ∧ b ≠ 0xFF#8) :
    feedByte b s = .next { s with rxHold := b, rxFull := false } :=
  (feedByte_eq b s).trans (exec_decodeByte_inSysex hs h.1 h.2 _)

theorem feed_cons {b : Byte} {s t : State} (h : feedByte b s = .next t) (bs : List Byte) : feed (b :: bs) s = feed bs t := by
  simp only [feed, h]

/-- Bytes inside SysEx leave only the last of them in the receive register (R120). -/
theorem feed_inSysex {s : State} {b : Byte} {bs : List Byte} (hs : s.sysex = true)
    (h : ∀ x ∈ b :: bs, x ≠ 0xF7#8 ∧ x ≠ 0xFF#8) :
    feed (b :: bs) s = .next { s with rxHold := (b :: bs).getLast (by simp), rxFull := false } := by
  induction bs generalizing b s with
  | nil => rw [feed_cons (feedByte_inSysex hs (h b (by simp)))]; rfl
  | cons c cs ih =>
    have hrest : ∀ x ∈ c :: cs, x ≠ 0xF7#8 ∧ x ≠ 0xFF#8 := fun x hx => h x (.tail b hx)
    rw [feed_cons (feedByte_inSysex hs (h b (by simp))), ih (s := { s with rxHold := b, rxFull := false }) hs hrest]
    rfl

/-- Settles O13: content is discarded byte by byte, so by induction only the receive register shows what was fed. -/
theorem sysexContentDiscarded : Obligations.SysexContentDiscarded :=
  ⟨fun _ _ => rfl, fun _ _ hs hlt heox => decodeByte_sysexContent hs hlt heox, fun _ _ _ hs h => feed_inSysex hs h⟩

/-- Settles O10: a byte 0xF8 to 0xFE decodes to a Real-Time row in every parser state, and such a row has no effect. -/
theorem realTimeBytesIgnored : Obligations.RealTimeBytesIgnored := by
  refine ⟨fun s => ⟨rfl, rfl, rfl, rfl, rfl, rfl, rfl⟩, fun s hfull hrt => ?_⟩
  rw [parserStep_full hfull, heldInstr, decodeByte_of_ge (isRealTime_iff.mp hrt).1]
  exact exec_decodeRealTime hrt _

/-! #### Data bytes -/

/-- Outside SysEx a data byte is told apart by the count and the running status alone (R131, R132, R133). -/
theorem decodeByte_dataByte {ctx : DecodeCtx} (hctx : ctx.sysex = false) (v : Data7) :
    decodeByte ctx (dataByte v) =
      if ctx.cnt = 0#2 then if ctx.rs = 0x00#8 then .dataNoStatus v else .dataRunningStatus v else .dataContinue v := by
  have hle : (dataByte v).toNat ≤ 0x7F := isData_iff.mp (isData_dataByte v)
  have hrt : ¬ 0xF8 ≤ (dataByte v).toNat := by omega
  have hstatus : ¬ 0x80 ≤ (dataByte v).toNat := by omega
  simp [decodeByte, decodeData, hctx, hrt, hstatus]

theorem setBuf_of_lt {i : Nat} (hi : i < 3) (b : Byte) (s : State) : setBuf i b s = { s with buf := s.buf.set i b } := by
  simp [setBuf, Vector.setIfInBounds, Vector.set, Array.setIfInBounds, hi]

/-- The completion test against a known length (R134). -/
theorem completeIfFull_of_msgLen {s : State} {len : Nat} (h : msgLen s.buf[0] = some len) :
    completeIfFull s = if s.cnt.toNat = len then { dispatch (bufferedMsg s.buf len) s with cnt := 0#2 } else s := by
  simp only [completeIfFull, h, Option.some.injEq, eq_comm (a := len)]
  split_ifs with hfull
  · rw [complete, hfull]; rfl
  · rfl

/-- A data byte under running status is buffered behind it, and the completion test is against the length of the running status
(R131, R134). -/
theorem exec_dataRunningStatus {s : State} {len : Nat} (hlen : msgLen s.rs = some len) (v : Data7) :
    exec (.dataRunningStatus v) s =
      if 2 = len then
        .next { dispatch (bufferedMsg #v[s.rs, dataByte v, s.buf[2]] len)
          { s with buf := #v[s.rs, dataByte v, s.buf[2]], cnt := 2#2 } with cnt := 0#2 }
      else .next { s with buf := #v[s.rs, dataByte v, s.buf[2]], cnt := 2#2 } := by
  have hbuf : (s.buf.set 0 s.rs).set 1 (dataByte v) = #v[s.rs, dataByte v, s.buf[2]] := by
    ext i hi
    interval_cases i <;> simp
  have hexec : exec (.dataRunningStatus v) s =
      .next (completeIfFull { s with buf := #v[s.rs, dataByte v, s.buf[2]], cnt := 2#2 }) := by
    simp only [exec, execDataRunningStatus, setBuf_zero, setBuf_one, hbuf, setCnt]
  have hstatus : #v[s.rs, dataByte v, s.buf[2]][0] = s.rs := rfl
  rw [hexec, completeIfFull_of_msgLen (len := len) (by rw [hstatus, hlen]), apply_ite Host.Outcome.next]
  rfl

/-- A data byte behind a status byte in the buffer is stored at `buf[cnt]` and counted, and the completion test is against the
length of that status byte (R133, R134). -/
theorem exec_dataContinue {s : State} {len : Nat} (hc : s.cnt.toNat < 3) (h0 : s.cnt ≠ 0#2) (hlen : msgLen s.buf[0] = some len)
    (v : Data7) :
    exec (.dataContinue v) s =
      if s.cnt.toNat + 1 = len then
        .next { dispatch (bufferedMsg (s.buf.set s.cnt.toNat (dataByte v)) len)
          { s with buf := s.buf.set s.cnt.toNat (dataByte v), cnt := s.cnt + 1#2 } with cnt := 0#2 }
      else .next { s with buf := s.buf.set s.cnt.toNat (dataByte v), cnt := s.cnt + 1#2 } := by
  have hpos : s.cnt.toNat ≠ 0 := fun h => h0 (BitVec.eq_of_toNat_eq h)
  have hcount : (s.cnt + 1#2).toNat = s.cnt.toNat + 1 := by bv_omega
  have hstatus : (s.buf.set s.cnt.toNat (dataByte v))[0] = s.buf[0] := Vector.getElem_set_ne _ _ hpos
  have hexec : exec (.dataContinue v) s =
      .next (completeIfFull { s with buf := s.buf.set s.cnt.toNat (dataByte v), cnt := s.cnt + 1#2 }) := by
    simp only [exec, execDataContinue, setBuf_of_lt hc, setCnt]
  rw [hexec, completeIfFull_of_msgLen (len := len) (by rw [hstatus, hlen]), apply_ite Host.Outcome.next, hcount]

/-- Between steps, a message in progress has a status byte whose length the count has not reached (R24, R27). -/
theorem ParserInv.msgLen_of_cnt {s : State} (hinv : ParserInv s) (h0 : s.cnt ≠ 0#2) :
    ∃ len, msgLen s.buf[0] = some len ∧ s.cnt.toNat < len := by
  obtain ⟨-, -, hbuf, -, -⟩ := hinv
  obtain ⟨-, -, hany⟩ := hbuf h0
  simpa [Option.any_eq_true] using hany

/-- Settles O23: the invariant gives the length of the buffered status byte, and the write behind it leaves that byte alone. -/
theorem continuingDataByte : Obligations.ContinuingDataByte := by
  refine ⟨fun ctx v hsysex hcnt => by simp [decodeByte_dataByte hsysex, hcnt], fun s v hinv h0 => ?_⟩
  obtain ⟨len, hlen, hlt⟩ := ParserInv.msgLen_of_cnt hinv h0
  have hle : len ≤ 3 := msgLen_le hlen
  have hc : s.cnt.toNat < 3 := by omega
  exact ⟨len, hc, hlen, hlt, hle, exec_dataContinue hc h0 hlen v⟩

/-- Settles O22: the count is 2 after the byte, so the message waits at length 3 and is complete at length 2. -/
theorem runningStatusDataByte : Obligations.RunningStatusDataByte := by
  refine ⟨fun rs v hrs => by simp [decodeByte_dataByte, hrs], fun s v hlen => ?_, fun s v hlen => ?_⟩
  · rw [exec_dataRunningStatus hlen, if_neg (by decide)]
  · rw [exec_dataRunningStatus hlen, if_pos rfl]
    simp [bufferedMsg]

/-- Settles O14: between steps no message is in progress inside SysEx, so with the flag cleared the parser is in IDLE. -/
theorem eoxLeavesSysex : Obligations.EoxLeavesSysex := by
  refine ⟨fun ctx hctx => decodeByte_eox hctx, fun s => rfl, fun s hinv hsysex => ?_⟩
  obtain ⟨-, -, -, -, hidle⟩ := hinv
  have hcnt : s.cnt = 0#2 := hidle hsysex
  exact ⟨by simp [parserState, hcnt], fun v hrs => by simp [decodeByte_dataByte, decodeCtx, hcnt, hrs]⟩

end Sys2Proof.Machine
end

section
/-! ### The Mapper's arithmetic: the priority scan, the slot index and the slot value (spec/41_mapper.md R152, R153, R159) -/

namespace Sys2Proof.Machine

/-- Any nonzero mode is active, the undefined ones included (R159, R163). -/
theorem modeActive_iff_ne_zero {m : Byte} : modeActive m = true ↔ m ≠ 0#8 := bne_iff_ne

/-- The priority scan in numbers: the highest zone with a nonzero mode decides alone (R159). -/
theorem prio_toNat (mode : Vector Byte 4) :
    (prio mode).toNat =
      if mode[3] ≠ 0#8 then 4 else if mode[2] ≠ 0#8 then 3 else if mode[1] ≠ 0#8 then 2 else if mode[0] ≠ 0#8 then 1 else 0 := by
  simp only [prio, modeActive_iff_ne_zero, apply_ite BitVec.toNat]
  rfl

/-- Every slot index addresses the frame buffer, so a write needs no bounds check (R152). -/
theorem slotIndex_toNat_le (z : Zone) (note : Data7) : (slotIndex z note).toNat ≤ 511 :=
  Nat.le_of_lt_succ (slotIndex z note).isLt

/-- Settles O32: the scan from the highest zone down, and the count as the code shifted up by 7. -/
theorem priorityScan : Obligations.PriorityScan :=
  fun m0 m1 m2 m3 => ⟨prio_toNat #v[m0, m1, m2, m3], accCount_toNat _⟩

/-- Settles O33: appending the note's 7 bits multiplies the zone by 128, and appending the Note On bit doubles the data value. -/
theorem slotIndexAndValue : Obligations.SlotIndexAndValue :=
  ⟨fun z note => ⟨slotIndex_toNat z note, slotIndex_toNat_le z note, rfl⟩,
    fun v => ⟨slotValue_toNat v false, slotValue_toNat v true, rfl, rfl⟩⟩

end Sys2Proof.Machine
end

section
/-! ### Runs of the Transmitter through a whole phase

A phase of constant level is run by induction on the cells that are left of it (R193). The BREAK and the Mark-After-Break are two such
phases; the `CSTART` step that enters the BREAK is itself the BREAK's first cell (R185). -/

namespace Sys2Proof.Machine

/-! #### Sequences of Transmitter steps -/

theorem txRun_succ {s t : State} (h : txStep s = .next t) (n : Nat) :
    txRun (n + 1) s = (txRun n t).map fun p => (t.line :: p.1, p.2) := by
  simp only [txRun, h]

/-- A nonempty run sees its first state only through that state's step. -/
theorem txRun_congr_of_txStep_eq {s t : State} (h : txStep s = txStep t) {n : Nat} (hn : n ≠ 0) : txRun n s = txRun n t := by
  obtain ⟨m, rfl⟩ := Nat.exists_eq_succ_of_ne_zero hn
  simp only [txRun, h]

/-- The cells of a run followed by another are the cells of both, in order. -/
theorem txRun_add {m n : Nat} {s t u : State} {cs ds : List Bool} (h : txRun m s = some (cs, t)) (h' : txRun n t = some (ds, u)) :
    txRun (m + n) s = some (cs ++ ds, u) := by
  induction m generalizing s cs with
  | zero =>
    obtain ⟨rfl, rfl⟩ : [] = cs ∧ s = t := by simpa [txRun] using h
    simpa using h'
  | succ m ih =>
    cases hs : txStep s with
    | next v =>
      rw [txRun_succ hs, Option.map_eq_some_iff] at h
      obtain ⟨⟨es, w⟩, hv, heq⟩ := h
      obtain ⟨rfl, rfl⟩ : v.line :: es = cs ∧ w = t := by simpa using heq
      rw [Nat.add_right_comm, txRun_succ hs, ih hv]
      rfl
    | fault f => simp [txRun, hs] at h
    | refused r => simp [txRun, hs] at h

/-! #### A phase of constant level -/

/-- The cells that are left of a phase of level `l` are all at that level, and the last of them leaves what `done` sets. The phase is
given by its step `hstep`; `done` may touch neither the line nor the latched byte, nor read `Hacc`, which each step restarts. -/
theorem txRun_phase {p : Phase} {c : Config} {l : Bool} {len : Nat} {done : State → State}
    (hstep : ∀ u : State, u.ph = p → u.cfg = c → txStep u = .next (resetHacc (phaseCell l len done u)))
    (hline : ∀ u, (done u).line = u.line ∧ (done u).sh = u.sh)
    (hhacc : ∀ u, resetHacc (done (resetHacc u)) = resetHacc (done u))
    {n : Nat} {s : State} (hp : s.ph = p) (hc : s.cfg = c) (hleft : cellsDone s + n = len) (hn : n ≠ 0) :
    txRun n s = some (List.replicate n l, resetHacc (done (setCells 0 (emit l s)))) := by
  induction n generalizing s with
  | zero => exact absurd rfl hn
  | succ n ih =>
    have hcell : (resetHacc (phaseCell l len done s)).line = l := (phaseCell_line_sh hline s).1
    rw [txRun_succ (hstep s hp hc), hcell]
    by_cases hlast : n = 0
    · subst hlast
      rw [phaseCell_last hleft]
      rfl
    · have hmore : cellsDone s + 1 ≠ len := by omega
      rw [phaseCell_more hmore, ih (by simpa using hp) (by simpa using hc) (by simp; omega) hlast, ← hhacc (setCells 0 (emit l s))]
      rfl

theorem txStep_brk {s : State} (hp : s.ph = .brk) : txStep s = .next (resetHacc (breakCell s)) := by
  simp [txStep, txCell, hp, mapNext]

theorem txStep_mab {s : State} (hp : s.ph = .mab) : txStep s = .next (resetHacc (mabCell s)) := by
  simp [txStep, txCell, hp, mapNext]

theorem txStep_cstart {s : State} (hp : s.ph = .cstart) : txStep s = .next (resetHacc (cstartStep s)) := by
  simp [txStep, txCell, hp, mapNext]

/-- The `n` cells that are left of a BREAK (R185). -/
theorem txRun_break {s : State} {n : Nat} (hp : s.ph = .brk) (hleft : cellsDone s + n = s.cfg.breakBits) (hn : n ≠ 0) :
    txRun n s = some (List.replicate n false, resetHacc { setCells 0 (emit false s) with ph := .mab }) :=
  txRun_phase (done := fun t => { t with ph := .mab }) (fun _ hu hc => by rw [txStep_brk hu, breakCell, hc])
    (fun _ => ⟨rfl, rfl⟩) (fun _ => rfl) hp rfl hleft hn

/-- The `n` cells that are left of a Mark-After-Break, after which the start code is framed (R186). -/
theorem txRun_mab {s : State} {n : Nat} (hp : s.ph = .mab) (hleft : cellsDone s + n = s.cfg.mabBits) (hn : n ≠ 0) :
    txRun n s = some (List.replicate n true, resetHacc { setCells 0 (emit true s) with ph := .frm, sym := 0#10 }) :=
  txRun_phase (done := fun t => { t with ph := .frm, sym := 0#10 }) (fun _ hu hc => by rw [txStep_mab hu, mabCell, hc])
    (fun _ => ⟨rfl, rfl⟩) (fun _ => rfl) hp rfl hleft hn

/-! #### The start of a cycle -/

/-- The state at the first cell of the BREAK: the count read, the indicators written, no cell emitted yet (R182, R184, R185). -/
def enterBreak (s : State) : State :=
  setCells 0 { s with latched := readCount s, indGroup := groupsOn (readCount s), ph := .brk }

theorem cstartStep_of_readCount_ne_zero {s : State} (hcount : readCount s ≠ 0#10) : cstartStep s = breakCell (enterBreak s) :=
  if_neg hcount

/-- With a nonzero count the `CSTART` step is the first cell of the BREAK it enters (R185). -/
theorem txStep_cstart_eq_enterBreak {s : State} (hp : s.ph = .cstart) (hcount : readCount s ≠ 0#10) :
    txStep s = txStep (enterBreak s) := by
  have hbrk : (enterBreak s).ph = .brk := rfl
  rw [txStep_cstart hp, cstartStep_of_readCount_ne_zero hcount, txStep_brk hbrk]

/-- The whole BREAK of a cycle, from its `CSTART` step on (R185). -/
theorem txRun_cstart_break {s : State} (hp : s.ph = .cstart) (hcount : readCount s ≠ 0#10) (hpos : s.cfg.breakBits ≠ 0) :
    txRun s.cfg.breakBits s =
      some (List.replicate s.cfg.breakBits false, resetHacc { setCells 0 (emit false (enterBreak s)) with ph := .mab }) := by
  have hnone : cellsDone (enterBreak s) + s.cfg.breakBits = s.cfg.breakBits := by simp [enterBreak]
  rw [txRun_congr_of_txStep_eq (txStep_cstart_eq_enterBreak hp hcount) hpos]
  exact txRun_break rfl hnone hpos

/-- Settles O49: the BREAK runs from the `CSTART` step, and the Mark-After-Break from the state that the BREAK leaves. -/
theorem breakThenMarkAfterBreak : Obligations.BreakThenMarkAfterBreak := by
  intro s hlegal hp hcount
  obtain ⟨hbreakMin, hmabMin⟩ := legal_iff.mp hlegal
  have hbreak := txRun_cstart_break hp hcount (by omega)
  exact ⟨_, txRun_add hbreak (txRun_mab rfl (Nat.zero_add _) (Nat.ne_zero_of_lt hmabMin)), rfl, rfl, rfl, rfl⟩

end Sys2Proof.Machine
end

section
/-! ### The decoder against the encoder, byte class by byte class

The decoder tests a byte for the Real-Time range, SysEx, a status byte and a data byte, in that order (spec/40_parser.md R110); in
each class the row of a byte, what the row asks of the state and the byte of the row are said once. -/

namespace Sys2Proof

/-- Outside SysEx a byte 0x80 to 0xF7 has the row of its type nibble (R85, R86). -/
theorem decodeByte_status {ctx : DecodeCtx} {b : Byte} (hctx : ctx.sysex = false) (hge : 0x80 ≤ b.toNat) (hlt : b.toNat < 0xF8) :
    decodeByte ctx b = decodeStatus b := by
  simp [decodeByte, hctx, hge, hlt]

theorem decodeByte_data {ctx : DecodeCtx} {b : Byte} (hctx : ctx.sysex = false) (hlt : b.toNat < 0x80) :
    decodeByte ctx b = decodeData ctx b := by
  have hrt : ¬ 0xF8 ≤ b.toNat := by omega
  have hstatus : ¬ 0x80 ≤ b.toNat := by omega
  simp [decodeByte, hctx, hrt, hstatus]

/-! #### Decoding an encoding -/

/-- A type nibble 0x8 to 0xE makes a Channel Voice status byte (R81). -/
theorem isChannelVoice_append {ty : BitVec 4} (h : 8 ≤ ty.toNat ∧ ty.toNat < 15) (c : Chan) : isChannelVoice (ty ++ c) = true := by
  have hb := Machine.toNat_eq_nibbles (ty ++ c)
  rw [Machine.statusType_append, Machine.statusChan_append] at hb
  have hc : c.toNat < 16 := c.isLt
  exact isChannelVoice_iff.mpr (by omega)

/-- A Channel Voice status byte outside SysEx (R85). -/
theorem decodeByte_channelVoice {ctx : DecodeCtx} {b : Byte} (hctx : ctx.sysex = false) (h : isChannelVoice b = true) :
    decodeByte ctx b = decodeStatus b := by
  obtain ⟨hge, hle⟩ := isChannelVoice_iff.mp h
  exact decodeByte_status hctx hge (by omega)

theorem decodeByte_encode {ctx : DecodeCtx} {i : Instr} (hwf : i.wellFormed = true) (happ : i.appliesIn ctx = true) :
    decodeByte ctx (encode i) = i := by
  cases i
  case dataRunningStatus v | dataNoStatus v =>
    obtain ⟨⟨hsysex, hcnt⟩, hrs⟩ : (ctx.sysex = false ∧ ctx.cnt = 0#2) ∧ _ := by simpa [Instr.appliesIn] using happ
    exact (Machine.decodeByte_dataByte hsysex v).trans (by simp [hcnt, hrs])
  case dataContinue v =>
    obtain ⟨hsysex, hcnt⟩ : ctx.sysex = false ∧ ctx.cnt ≠ 0#2 := by simpa [Instr.appliesIn] using happ
    exact (Machine.decodeByte_dataByte hsysex v).trans (if_neg hcnt)
  case sysexByte b =>
    obtain ⟨hlt, heox⟩ : b.toNat < 0xF8 ∧ b ≠ 0xF7#8 := by simpa [Instr.wellFormed, sysexContent] using hwf
    exact decodeByte_sysexContent happ hlt heox
  case eox => exact decodeByte_eox happ
  case noteOff c | noteOn c | polyPressure c | controlChange c | programChange c | channelPressure c | pitchBend c =>
    have hsysex : ctx.sysex = false := by simpa [Instr.appliesIn] using happ
    exact (decodeByte_channelVoice hsysex (isChannelVoice_append (by decide) c)).trans (by simp [decodeStatus])
  case sysexStart | scF1 | scF2 | scF3 | scF4 | scF5 | scF6 | eoxStray =>
    have hsysex : ctx.sysex = false := by simpa [Instr.appliesIn] using happ
    exact decodeByte_status hsysex (by decide) (by decide)
  case rtF8 | rtF9 | rtFA | rtFB | rtFC | rtFD | rtFE | systemReset => rfl

/-- Settles O1: the class of an encoding is that of its row, and the row's condition on the state picks it within the class. -/
theorem decodeOfEncodedInstr : Obligations.DecodeOfEncodedInstr := by
  intro ctx i rest hwf happ
  rw [decode, decodeByte_encode hwf happ]

/-! #### Encoding a decoding -/

/-- The row read from a byte is one the table admits, in a state in which it applies, and has that byte (R91). -/
abbrev ReadsAs (ctx : DecodeCtx) (b : Byte) (i : Instr) : Prop := i.wellFormed = true ∧ i.appliesIn ctx = true ∧ encode i = b

theorem decodeRealTime_readsAs {b : Byte} (h : 0xF8 ≤ b.toNat) (ctx : DecodeCtx) : ReadsAs ctx b (decodeRealTime b) := by
  have hbyte : ∀ b : Byte, 0xF8 ≤ b.toNat → encode (decodeRealTime b) = b := by decide +kernel
  refine ⟨?_, ?_, hbyte b h⟩ <;> unfold decodeRealTime <;> split <;> rfl

theorem decodeSystemCommon_rows (b : Byte) :
    decodeSystemCommon b ∈ [Instr.sysexStart, .scF1, .scF2, .scF3, .scF4, .scF5, .scF6, .eoxStray] := by
  unfold decodeSystemCommon; split <;> simp

/-- The rows of the status bytes are those that apply outside SysEx whatever else the state holds. -/
theorem decodeStatus_appliesIn (ctx : DecodeCtx) (b : Byte) :
    (decodeStatus b).wellFormed = true ∧ (decodeStatus b).appliesIn ctx = !ctx.sysex := by
  unfold decodeStatus
  split
  case h_8 =>
    have hrows := decodeSystemCommon_rows b
    simp only [List.mem_cons, List.not_mem_nil, or_false] at hrows
    obtain h | h | h | h | h | h | h | h := hrows <;> rw [h] <;> exact ⟨rfl, rfl⟩
  all_goals exact ⟨rfl, rfl⟩

theorem decodeStatus_readsAs {ctx : DecodeCtx} {b : Byte} (hctx : ctx.sysex = false) (hge : 0x80 ≤ b.toNat) (hlt : b.toNat < 0xF8) :
    ReadsAs ctx b (decodeStatus b) := by
  have hbyte : ∀ b : Byte, 0x80 ≤ b.toNat → b.toNat < 0xF8 → encode (decodeStatus b) = b := by decide +kernel
  obtain ⟨hwf, happ⟩ := decodeStatus_appliesIn ctx b
  exact ⟨hwf, by rw [happ, hctx]; rfl, hbyte b hge hlt⟩

theorem dataByte_dataValue {b : Byte} (h : b.toNat < 0x80) : Machine.dataByte (dataValue b) = b := by
  revert b; decide +kernel

theorem decodeData_readsAs {ctx : DecodeCtx} {b : Byte} (hctx : ctx.sysex = false) (h : b.toNat < 0x80) :
    ReadsAs ctx b (decodeData ctx b) := by
  unfold decodeData
  split_ifs with hcnt hrs
  · exact ⟨rfl, by simp [Instr.appliesIn, hctx, hcnt, hrs], dataByte_dataValue h⟩
  · exact ⟨rfl, by simp [Instr.appliesIn, hctx, hcnt, hrs], dataByte_dataValue h⟩
  · exact ⟨rfl, by simp [Instr.appliesIn, hctx, hcnt], dataByte_dataValue h⟩

/-- A byte inside SysEx below 0xF8 closes it or is its content (R120, R121). -/
theorem decodeByte_inSysex_readsAs {ctx : DecodeCtx} {b : Byte} (hctx : ctx.sysex = true) (hlt : b.toNat < 0xF8) :
    ReadsAs ctx b (decodeByte ctx b) := by
  by_cases heox : b = 0xF7#8
  · subst heox
    rw [decodeByte_eox hctx]
    exact ⟨rfl, hctx, rfl⟩
  · rw [decodeByte_sysexContent hctx hlt heox]
    exact ⟨by simp [Instr.wellFormed, sysexContent, hlt, heox], hctx, rfl⟩

theorem decodeByte_readsAs (ctx : DecodeCtx) (b : Byte) : ReadsAs ctx b (decodeByte ctx b) := by
  by_cases hrt : 0xF8 ≤ b.toNat
  · rw [decodeByte_of_ge hrt]
    exact decodeRealTime_readsAs hrt ctx
  have hlt : b.toNat < 0xF8 := by omega
  by_cases hctx : ctx.sysex = true
  · exact decodeByte_inSysex_readsAs hctx hlt
  have hout : ctx.sysex = false := by simpa using hctx
  by_cases hstatus : 0x80 ≤ b.toNat
  · rw [decodeByte_status hout hstatus hlt]
    exact decodeStatus_readsAs hout hstatus hlt
  · rw [decodeByte_data hout (by omega)]
    exact decodeData_readsAs hout (by omega)

/-- Settles O2: in each of the decoder's classes every byte has its row. -/
theorem everyByteDecodes : Obligations.EveryByteDecodes := decodeByte_readsAs

/-- Settles O3: the five bytes are evaluated. -/
theorem writtenOutBytesDecode : Obligations.WrittenOutBytesDecode := by
  unfold Obligations.WrittenOutBytesDecode; decide

end Sys2Proof
end

section
/-! ### One Transmitter step, for every phase at once

Outside `CSTART` a step is one cell: its level and the byte it latches depend on the phase and the cell counter, and after the phase's
last cell the phase and the symbol that follow are set (spec/42_transmitter.md R185 to R193). The claims about single steps are read
off this one description. -/

namespace Sys2Proof.Machine

/-- The level of cell `k` of the framed byte `b`: start bit, data bits, stop bits (R95, R188). -/
def frameLevel (b : Byte) (k : Nat) : Bool := if k = 0 then false else if k ≤ 8 then b.getLsbD (k - 1) else true

/-- The level of cell `k` of a phase, with the byte `b` latched (R185 to R192). -/
def phaseLevel (p : Phase) (b : Byte) (k : Nat) : Bool :=
  match p with
  | .brk => false
  | .frm => frameLevel b k
  | .cstart | .mab | .mtbs | .mbb => true

/-- The level of the cell a phase emits next, with the byte `b` latched. -/
abbrev cellLevel (b : Byte) (s : State) : Bool := phaseLevel s.ph b (cellsDone s)

/-- The byte in `sh` during a cell: a start bit latches the symbol's byte, every other cell keeps what is there (R187). -/
def cellByte (s : State) : Except Fault Byte := if s.ph = .frm ∧ cellsDone s = 0 then symbolByte s else .ok s.sh

/-- The phase after the last cell of a phase (R186, R190 to R192). -/
def phaseAfter (s : State) : Phase :=
  match s.ph with
  | .brk => .mab
  | .mab | .mtbs => .frm
  | .frm => if s.sym = s.latched then (if s.cfg.mbbBits = 0 then .cstart else .mbb) else (if s.cfg.mtbsBits = 0 then .frm else .mtbs)
  | .cstart | .mbb => .cstart

/-- The symbol after the last cell of a phase (R186, R190). -/
def symAfter (s : State) : BitVec 10 :=
  match s.ph with
  | .mab => 0#10
  | .frm => if s.sym = s.latched then s.sym else s.sym + 1#10
  | .cstart | .brk | .mtbs | .mbb => s.sym

/-- The state after a cell outside `CSTART` in which `sh` holds `b` (R193). -/
def afterCell (b : Byte) (s : State) : State :=
  if cellsDone s + 1 = phaseLength s.cfg s.ph then
    resetHacc { setCells 0 (emit (cellLevel b s) s) with sh := b, ph := phaseAfter s, sym := symAfter s }
  else resetHacc { setCells (cellsDone s + 1) (emit (cellLevel b s) s) with sh := b }

/-- A cell of a phase is `afterCell`, given its level, its length and what follows it. -/
theorem phaseCell_eq_afterCell {l : Bool} {len : Nat} {done : State → State} {s : State} (hl : cellLevel s.sh s = l)
    (hlen : phaseLength s.cfg s.ph = len)
    (hdone : done (setCells 0 (emit l s)) = { setCells 0 (emit l s) with ph := phaseAfter s, sym := symAfter s }) :
    resetHacc (phaseCell l len done s) = afterCell s.sh s := by
  unfold afterCell
  rw [hlen, hl]
  split_ifs with h
  · rw [phaseCell_last h, hdone]; rfl
  · rw [phaseCell_more h]; rfl

theorem nextSymbol_eq {s : State} (hp : s.ph = .frm) : nextSymbol s = { s with ph := phaseAfter s, sym := symAfter s } := by
  simp only [nextSymbol, phaseAfter, symAfter, hp]
  split_ifs <;> rfl

theorem frameCell_eq_afterCell {s : State} (hp : s.ph = .frm) :
    resetHacc (frameCell (frameLevel s.sh (cellsDone s)) s) = afterCell s.sh s :=
  phaseCell_eq_afterCell (by simp only [cellLevel, phaseLevel, hp]) (by simp only [phaseLength, hp])
    (by rw [nextSymbol_eq (by simpa using hp)]; rfl)

/-- A start bit frames the symbol's byte, or faults where there is none (R69, R187). -/
theorem txStep_startBit {s : State} (hp : s.ph = .frm) (h0 : cellsDone s = 0) :
    (∀ b, symbolByte s = .ok b → txStep s = .next (afterCell b s)) ∧ (∀ e, symbolByte s = .error e → txStep s = .fault e) := by
  refine ⟨fun b hb => ?_, fun e he => by simp [txStep_frm hp, frmStep, h0, he, mapNext]⟩
  have h0' : cellsDone { s with sh := b } = 0 := h0
  have hcell := frameCell_eq_afterCell (s := { s with sh := b }) hp
  rw [h0'] at hcell
  simp only [txStep_frm hp, frmStep, h0, hb, if_true, mapNext]
  exact congrArg _ hcell

theorem txStep_frameCell {s : State} (hp : s.ph = .frm) (h0 : cellsDone s ≠ 0) : txStep s = .next (afterCell s.sh s) := by
  simp only [txStep_frm hp, ← frameCell_eq_afterCell hp, frmStep, frameLevel, if_neg h0]
  split_ifs <;> rfl

/-- A step outside `CSTART` and not at a start bit is the phase's next cell. -/
theorem txStep_of_not_startBit {s : State} (hc : s.ph ≠ .cstart) (hs : ¬(s.ph = .frm ∧ cellsDone s = 0)) :
    txStep s = .next (afterCell s.sh s) := by
  cases hp : s.ph with
  | cstart => exact absurd hp hc
  | frm => exact txStep_frameCell hp fun h0 => hs ⟨hp, h0⟩
  | brk | mab | mtbs | mbb =>
    simp only [txStep, txCell, hp, mapNext]
    exact congrArg _ (phaseCell_eq_afterCell (by simp only [cellLevel, phaseLevel, hp]) (by simp only [phaseLength, hp])
      (by simp only [phaseAfter, symAfter, hp] <;> rfl))

theorem txStep_of_cellByte_ok {s : State} {b : Byte} (hc : s.ph ≠ .cstart) (hb : cellByte s = .ok b) :
    txStep s = .next (afterCell b s) := by
  unfold cellByte at hb
  split_ifs at hb with hs
  · exact (txStep_startBit hs.1 hs.2).1 b hb
  · cases hb
    exact txStep_of_not_startBit hc hs

theorem txStep_of_cellByte_error {s : State} {e : Fault} (hb : cellByte s = .error e) : txStep s = .fault e := by
  unfold cellByte at hb
  split_ifs at hb with hs
  exact (txStep_startBit hs.1 hs.2).2 e hb

/-- Every step outside `CSTART` that answers is `afterCell` of the byte of its cell. -/
theorem txStep_eq_afterCell {s t : State} (hc : s.ph ≠ .cstart) (h : txStep s = .next t) :
    ∃ b, cellByte s = .ok b ∧ t = afterCell b s := by
  cases hb : cellByte s with
  | ok b =>
    rw [txStep_of_cellByte_ok hc hb] at h
    exact ⟨b, rfl, (Host.Outcome.next.inj h).symm⟩
  | error e =>
    rw [txStep_of_cellByte_error hb] at h
    cases h

/-! #### What a cell leaves in each register -/

section Registers

variable (b : Byte) (s : State)

@[simp] theorem afterCell_line : (afterCell b s).line = phaseLevel s.ph b (cellsDone s) := by unfold afterCell; split_ifs <;> rfl
@[simp] theorem afterCell_sh : (afterCell b s).sh = b := by unfold afterCell; split_ifs <;> rfl
@[simp] theorem afterCell_latched : (afterCell b s).latched = s.latched := by unfold afterCell; split_ifs <;> rfl
@[simp] theorem afterCell_indGroup : (afterCell b s).indGroup = s.indGroup := by unfold afterCell; split_ifs <;> rfl
@[simp] theorem afterCell_cfg : (afterCell b s).cfg = s.cfg := by unfold afterCell; split_ifs <;> rfl

end Registers

theorem afterCell_more {b : Byte} {s : State} (h : cellsDone s + 1 ≠ phaseLength s.cfg s.ph) :
    (afterCell b s).ph = s.ph ∧ (afterCell b s).sym = s.sym ∧ cellsDone (afterCell b s) = cellsDone s + 1 := by
  rw [afterCell, if_neg h]
  exact ⟨rfl, rfl, cellsDone_setCells s _⟩

theorem afterCell_last {b : Byte} {s : State} (h : cellsDone s + 1 = phaseLength s.cfg s.ph) :
    (afterCell b s).ph = phaseAfter s ∧ (afterCell b s).sym = symAfter s ∧ cellsDone (afterCell b s) = 0 := by
  rw [afterCell, if_pos h]
  exact ⟨rfl, rfl, cellsDone_setCells s _⟩

end Sys2Proof.Machine
end

section
/-! ### What an instruction writes, row by row

The inversion of `exec`, of the completion test and of `dispatch` with everything each case knows: the instruction and the fields of
the message. Who may write which piece of state follows from these cases (spec/40_parser.md; spec/41_mapper.md). -/

namespace Sys2Proof.Machine

/-! #### Status bytes -/

/-- A Channel Voice status byte becomes the running status and the first byte of the buffer (R123). -/
theorem channelVoice_eq {b : Byte} (hlen : msgLen b = some 2 ∨ msgLen b = some 3) (s : State) :
    channelVoice b s = .next { s with rs := b, buf := s.buf.set 0 b, cnt := 1#2 } := by
  rw [channelVoice, startMessage_long hlen]
  rfl

theorem msgLen_append_three {ty : BitVec 4} (h : ty ∈ [0x8#4, 0x9#4, 0xA#4, 0xB#4, 0xE#4]) (c : Chan) : msgLen (ty ++ c) = some 3 := by
  simp only [List.mem_cons, List.not_mem_nil, or_false] at h
  obtain rfl | rfl | rfl | rfl | rfl := h <;> simp [msgLen]

theorem msgLen_append_two {ty : BitVec 4} (h : ty ∈ [0xC#4, 0xD#4]) (c : Chan) : msgLen (ty ++ c) = some 2 := by
  simp only [List.mem_cons, List.not_mem_nil, or_false] at h
  obtain rfl | rfl := h <;> simp [msgLen]

/-- Settles O17: each of the seven status bytes has length 2 or 3, so its message is not complete yet. -/
theorem channelVoiceStatusStarts : Obligations.ChannelVoiceStatusStarts := fun s c =>
  have three {ty : BitVec 4} (h : ty ∈ [0x8#4, 0x9#4, 0xA#4, 0xB#4, 0xE#4]) := channelVoice_eq (.inr (msgLen_append_three h c)) s
  have two {ty : BitVec 4} (h : ty ∈ [0xC#4, 0xD#4]) := channelVoice_eq (.inl (msgLen_append_two h c)) s
  ⟨three (by decide), three (by decide), three (by decide), three (by decide), two (by decide), two (by decide), three (by decide)⟩

/-- Settles O18: a System Common byte of length 2 or 3 waits for data, one of length 1 is complete and maps nothing. -/
theorem systemCommonStatusStarts : Obligations.SystemCommonStatusStarts := fun s =>
  ⟨congrArg _ (startMessage_long (.inl rfl) s), congrArg _ (startMessage_long (.inr rfl) s), congrArg _ (startMessage_long (.inl rfl) s),
    congrArg _ (startMessage_short rfl rfl s), congrArg _ (startMessage_short rfl rfl s), congrArg _ (startMessage_short rfl rfl s)⟩

/-! #### The instructions -/

/-- The state in which a data byte under running status makes the completion test (R131). -/
def bufferRunning (v : Data7) (s : State) : State := setCnt 2#2 (setBuf 1 (dataByte v) (setBuf 0 s.rs s))

/-- The state in which a data byte that continues a message makes the completion test (R133). -/
def bufferNext (v : Data7) (s : State) : State := setCnt (s.cnt + 1#2) (setBuf s.cnt.toNat (dataByte v) s)

/-- Every instruction answers, and but for the two rows that may complete a message and for the System Reset it writes parser
registers only. -/
theorem exec_rows (i : Instr) (s : State) :
    ∃ t, exec i s = .next t ∧
      (OnlyParser s t ∨ (∃ v, i = .dataRunningStatus v ∧ t = completeIfFull (bufferRunning v s)) ∨
        (∃ v, i = .dataContinue v ∧ t = completeIfFull (bufferNext v s)) ∨
        i = .systemReset ∧ t = signalReset (clearSlots (resetTables (resetParser s)))) := by
  cases i
  case dataNoStatus | sysexByte | sysexStart | eox | eoxStray | rtF8 | rtF9 | rtFA | rtFB | rtFC | rtFD | rtFE =>
    exact ⟨_, rfl, .inl rfl⟩
  case noteOff c | noteOn c | polyPressure c | controlChange c | pitchBend c =>
    exact ⟨_, channelVoice_eq (.inr (msgLen_append_three (by decide) c)) s, .inl rfl⟩
  case programChange c | channelPressure c =>
    exact ⟨_, channelVoice_eq (.inl (msgLen_append_two (by decide) c)) s, .inl rfl⟩
  case scF1 | scF3 => exact ⟨_, congrArg Host.Outcome.next (startMessage_long (.inl rfl) s), .inl rfl⟩
  case scF2 => exact ⟨_, congrArg Host.Outcome.next (startMessage_long (.inr rfl) s), .inl rfl⟩
  case scF4 | scF5 | scF6 => exact ⟨_, congrArg Host.Outcome.next (startMessage_short rfl rfl s), .inl rfl⟩
  case dataRunningStatus v => exact ⟨_, rfl, .inr (.inl ⟨v, rfl, rfl⟩)⟩
  case dataContinue v => exact ⟨_, rfl, .inr (.inr (.inl ⟨v, rfl, rfl⟩))⟩
  case systemReset => exact ⟨_, rfl, .inr (.inr (.inr ⟨rfl, rfl⟩))⟩

/-- The same cases of an instruction known to answer `t`. -/
theorem exec_next_cases {i : Instr} {s t : State} (h : exec i s = .next t) :
    OnlyParser s t ∨ (∃ v, i = .dataRunningStatus v ∧ t = completeIfFull (bufferRunning v s)) ∨
      (∃ v, i = .dataContinue v ∧ t = completeIfFull (bufferNext v s)) ∨
      i = .systemReset ∧ t = signalReset (clearSlots (resetTables (resetParser s))) := by
  obtain ⟨t', ht', hcases⟩ := exec_rows i s
  obtain rfl : t' = t := Host.Outcome.next.inj (ht'.symm.trans h)
  exact hcases

/-- An instruction leaves the Transmitter, the receive register and the model's own fields alone (R61). -/
theorem exec_frame {i : Instr} {s t : State} (h : exec i s = .next t) : SameTx s t ∧ SameRx s t ∧ SameEnv s t := by
  obtain ht | ⟨v, -, rfl⟩ | ⟨v, -, rfl⟩ | ⟨-, rfl⟩ := exec_next_cases h
  · rw [ht]
    simp [SameTx, SameRx, SameEnv]
  · obtain ⟨hrx, htx, henv, -⟩ := completeIfFull_frame (bufferRunning v s)
    exact ⟨htx, hrx, henv⟩
  · obtain ⟨hrx, htx, henv, -⟩ := completeIfFull_frame (bufferNext v s)
    exact ⟨htx, hrx, henv⟩
  · simp [SameTx, SameRx, SameEnv]

/-- Settles O39: every other row writes parser registers only. -/
theorem nonDispatchingInstrsFrame : Obligations.NonDispatchingInstrsFrame := by
  intro i s t h hreset hrunning hcontinue
  obtain ht | ⟨v, hi, -⟩ | ⟨v, hi, -⟩ | ⟨hi, -⟩ := exec_next_cases h
  · rw [ht]
    exact ⟨fun _ => rfl, ⟨rfl, rfl, rfl⟩, rfl⟩
  · exact absurd hi (hrunning v)
  · exact absurd hi (hcontinue v)
  · exact absurd hi hreset

/-! #### The running status -/

/-- The running status is kept, or cleared by the System Reset, or it is the byte of a Channel Voice row (R22). -/
theorem exec_rs {i : Instr} {s t : State} (h : exec i s = .next t) :
    t.rs = s.rs ∨ (i = .systemReset ∧ t.rs = 0x00#8) ∨
      (isChannelVoice (encode i) = true ∧ t.rs = encode i ∧ ∀ ctx, i.appliesIn ctx = !ctx.sysex) := by
  cases i
  case noteOff c | noteOn c | polyPressure c | controlChange c | programChange c | channelPressure c | pitchBend c =>
    obtain ⟨-, -, -, hrs, -⟩ := completeIfFull_frame (setCnt 1#2 (setBuf 0 _ (setRs _ s)))
    exact .inr (.inr ⟨isChannelVoice_append (by decide) c, (Host.Outcome.next.inj h) ▸ hrs, fun _ => rfl⟩)
  case systemReset => exact .inr (.inl ⟨rfl, Host.Outcome.next.inj h ▸ rfl⟩)
  case dataNoStatus | sysexByte | sysexStart | eox | eoxStray | rtF8 | rtF9 | rtFA | rtFB | rtFC | rtFD | rtFE =>
    exact .inl (Host.Outcome.next.inj h ▸ rfl)
  case dataRunningStatus v | dataContinue v | scF1 | scF2 | scF3 | scF4 | scF5 | scF6 =>
    obtain ⟨-, -, -, hrs, -⟩ := completeIfFull_frame _
    exact .inl (Host.Outcome.next.inj h ▸ hrs)

/-! #### Dispatch -/

/-- The completion test does nothing, or the count is the length of the buffered message and the message is dispatched (R134). -/
theorem completeIfFull_cases_msg (s : State) :
    completeIfFull s = s ∨
      msgLen s.buf[0] = some s.cnt.toNat ∧ completeIfFull s = setCnt 0#2 (dispatch (bufferedMsg s.buf s.cnt.toNat) s) := by
  unfold completeIfFull
  split_ifs with h
  · exact .inr ⟨h, rfl⟩
  · exact .inl rfl

/-- Dispatch does nothing, or writes the slot that a message with two data values on a zone's channel addresses, or is a
PROGRAM_CHANGE on a zone's channel (R150, R151). -/
theorem dispatch_cases_msg (m : Msg) (s : State) :
    dispatch m s = s ∨
      (∃ z note v b, zoneOf (statusChan m.status) = some z ∧ m.d1 = some note ∧ m.d2 = some v ∧
        dispatch m s = memWrite (slotIndex z note) b s) ∨
      (∃ z prog, statusType m.status = 0xC#4 ∧ zoneOf (statusChan m.status) = some z ∧ m.d1 = some prog ∧
        dispatch m s = mapProgramChange z prog s) := by
  unfold dispatch
  split_ifs
  · exact .inl rfl
  cases hz : zoneOf (statusChan m.status) with
  | none => exact .inl rfl
  | some z =>
    simp only [mapZone]
    split
    case h_1 note vel _ h1 h2 =>
      unfold mapNoteOff
      split_ifs
      · exact .inr (.inl ⟨z, note, vel, _, rfl, h1, h2, rfl⟩)
      · exact .inl rfl
    case h_2 note vel _ h1 h2 => exact .inr (.inl ⟨z, note, vel, _, rfl, h1, h2, rfl⟩)
    case h_3 note p _ h1 h2 =>
      unfold mapPolyPressure
      split_ifs
      · exact .inr (.inl ⟨z, note, p, _, rfl, h1, h2, rfl⟩)
      · exact .inl rfl
    case h_5 prog hty h1 => exact .inr (.inr ⟨z, prog, hty, rfl, h1, rfl⟩)
    all_goals exact .inl rfl

end Sys2Proof.Machine
end

section
/-! ### Single Transmitter steps: the start of a cycle, the start bit, the cells -/

namespace Sys2Proof.Machine

/-! #### The start of a cycle -/

/-- A count of 0 gives an idle cell at mark (R183). -/
theorem txStep_cstart_idle {s : State} (hp : s.ph = .cstart) (hcount : readCount s = 0#10) :
    txStep s = .next (resetHacc (emit true { s with latched := readCount s, indGroup := groupsOn (readCount s) })) := by
  rw [txStep_cstart hp, cstartStep]
  simp only [if_pos hcount]

/-- Any other count gives the first cell of the BREAK (R185). -/
theorem txStep_cstart_first {s : State} (hp : s.ph = .cstart) (hcount : readCount s ≠ 0#10) :
    txStep s = .next (afterCell s.sh (enterBreak s)) := by
  have hbrk : (enterBreak s).ph = .brk := rfl
  rw [txStep_cstart_eq_enterBreak hp hcount]
  exact txStep_of_not_startBit (by simp [hbrk]) (by simp [hbrk])

/-- A legal BREAK goes on after its first cell (R5, R185). -/
theorem afterCell_enterBreak {s : State} (hlegal : s.cfg.legal = true) (b : Byte) :
    (afterCell b (enterBreak s)).ph = .brk ∧ (afterCell b (enterBreak s)).sym = s.sym ∧ cellsDone (afterCell b (enterBreak s)) = 1 := by
  obtain ⟨hbreak, -⟩ := legal_iff.mp hlegal
  have hnone : cellsDone (enterBreak s) = 0 := cellsDone_setCells _ 0
  have hmore : cellsDone (enterBreak s) + 1 ≠ phaseLength (enterBreak s).cfg (enterBreak s).ph := by
    rw [hnone]
    show 1 ≠ s.cfg.breakBits
    omega
  have h := afterCell_more (b := b) hmore
  rwa [hnone] at h

/-- Settles O43: a count of 0 gives the idle cell, any other the first of at least 23 BREAK cells. -/
theorem cycleStartReadsCount : Obligations.CycleStartReadsCount := by
  intro s hlegal hp
  have hcode (htear : s.cfg.accTear = false) : (readCount s).toNat = 128 * s.accCode.toNat := by
    rw [readCount_whole htear, accCount_toNat]
  by_cases hcount : readCount s = 0#10
  · exact ⟨_, txStep_cstart_idle hp hcount, rfl, hcode, groupsOn_getElem _, rfl, rfl,
      fun _ => ⟨rfl, hp, rfl⟩, fun h => absurd hcount h⟩
  · obtain ⟨hph, hsym, hcells⟩ := afterCell_enterBreak hlegal s.sh
    have hlatched : (afterCell s.sh (enterBreak s)).latched = readCount s := afterCell_latched _ _
    have hgroups : (afterCell s.sh (enterBreak s)).indGroup = groupsOn (readCount s) := afterCell_indGroup _ _
    refine ⟨_, txStep_cstart_first hp hcount, hlatched, fun htear => hlatched ▸ hcode htear, fun g hg => ?_, hsym, afterCell_sh _ _,
      fun h => absurd (hlatched.symm.trans h) hcount, fun _ => ⟨afterCell_line _ _, hph, hcells⟩⟩
    simp only [hgroups, hlatched, groupsOn_getElem _ g hg]

/-! #### The torn count -/

theorem pick_mem {vs : List (BitVec 16)} {d : BitVec 16} (hd : d ∈ vs) (i : Nat) : pick vs i d ∈ vs := by
  have hlt : i % vs.length < vs.length := Nat.mod_lt i (List.length_pos_of_mem hd)
  simp [pick, List.getElem?_eq_getElem hlt]

/-- A torn read takes its two bytes from two values that the count has held (R68). -/
theorem readCount_torn {s : State} (htear : s.cfg.accTear = true) (hmem : accWord s.accCode ∈ s.hacc) :
    ∃ va ∈ s.hacc, ∃ vb ∈ s.hacc, readCount s = tornCount va vb :=
  ⟨_, pick_mem hmem (Config.freeHigh s.tick), _, pick_mem hmem (Config.freeLow s.tick), by simp [readCount, htear]⟩

/-- The draws the values of the count allow: the high byte is 0, 1 or 2, the low byte 0 or 128 (R68). -/
theorem tornCount_values {va vb : BitVec 16} (ha : va ∈ accValues) (hb : vb ∈ accValues) :
    (tornCount va vb).toNat = 256 * (va.toNat / 256) + vb.toNat % 256 ∧
      (tornCount va vb).toNat ∈ [0, 128, 256, 384, 512, 640] := by
  simp only [List.mem_cons, List.not_mem_nil, or_false] at ha hb
  obtain rfl | rfl | rfl | rfl | rfl := ha <;> obtain rfl | rfl | rfl | rfl | rfl := hb <;> decide

/-- Settles O44: the two picks are members of `Hacc`, whose values allow six draws; the rest is the cycle start of any count. -/
theorem tornCountComesFromHacc : Obligations.TornCountComesFromHacc := by
  intro s htear hlegal hp htab
  obtain ⟨t, ht, hlatched, -, hgroups, -, -, hidle, hbreak⟩ := cycleStartReadsCount s hlegal hp
  obtain ⟨-, -, -, hmem, hvalues⟩ := htab
  obtain ⟨va, hva, vb, hvb, hcount⟩ := readCount_torn htear hmem
  obtain ⟨hnum, hsix⟩ := tornCount_values (hvalues va hva) (hvalues vb hvb)
  rw [← hcount, ← hlatched] at hnum hsix
  refine ⟨t, ht, ⟨va, hva, vb, hvb, hnum⟩, hsix, hgroups, fun h => ?_, fun h => ?_⟩
  · obtain ⟨hline, hph, -⟩ := hidle h
    exact ⟨hline, hph⟩
  · obtain ⟨hline, hph, -⟩ := hbreak h
    exact ⟨hline, hph⟩

/-! #### Cells outside `CSTART` -/

/-- Settles O45: a cell outside `CSTART` leaves both. -/
theorem onlyCycleStartWritesIndicators : Obligations.OnlyCycleStartWritesIndicators := by
  intro s t hc h
  obtain ⟨b, -, rfl⟩ := txStep_eq_afterCell hc h
  exact ⟨afterCell_indGroup b s, afterCell_latched b s⟩

theorem symbolByte_start {s : State} (h : s.sym = 0#10) : symbolByte s = .ok 0x00#8 := if_pos h

theorem symbolByte_eq_memRead {s : State} (h : 1 ≤ s.sym.toNat) : symbolByte s = memRead (s.sym.toNat - 1) s :=
  if_neg fun h0 => by rw [h0] at h; exact absurd h (by decide)

/-- A symbol 1 to 512 reads its slot (R187). -/
theorem symbolByte_slot {s : State} (h1 : 1 ≤ s.sym.toNat) (h512 : s.sym.toNat ≤ 512) :
    symbolByte s = .ok (s.fb.read (s.sym.toNat - 1)) := by
  rw [symbolByte_eq_memRead h1, memRead_of_lt (by omega)]

/-- A symbol from 513 on has no slot (R69). -/
theorem symbolByte_outside {s : State} (h : 513 ≤ s.sym.toNat) : symbolByte s = .error (.slotIndexOutOfRange (s.sym.toNat - 1)) := by
  rw [symbolByte_eq_memRead (by omega), memRead_of_ge (by omega)]

/-- A start bit latches the symbol's byte, and the framed byte goes on (R187, R193). -/
theorem txStep_startBit_latches {s : State} {b : Byte} (hp : s.ph = .frm) (h0 : cellsDone s = 0) (hb : symbolByte s = .ok b) :
    ∃ t, txStep s = .next t ∧ t.sh = b ∧ t.line = false ∧ cellsDone t = 1 ∧ t.ph = .frm ∧ t.sym = s.sym := by
  have hmore : cellsDone s + 1 ≠ phaseLength s.cfg s.ph := by rw [h0, hp]; simp [phaseLength, Config.frameBits]
  obtain ⟨hph, hsym, hcells⟩ := afterCell_more (b := b) hmore
  refine ⟨_, (txStep_startBit hp h0).1 b hb, afterCell_sh b s, ?_, by rw [hcells, h0], hph.trans hp, hsym⟩
  simp [phaseLevel, hp, frameLevel, h0]

/-- Settles O46: which byte a symbol has decides the start bit. -/
theorem startBitLatchesLiveByte : Obligations.StartBitLatchesLiveByte := fun _ hp h0 =>
  ⟨fun h => txStep_startBit_latches hp h0 (symbolByte_start h),
    fun h1 h512 => txStep_startBit_latches hp h0 (symbolByte_slot h1 h512),
    fun h => (txStep_startBit hp h0).2 _ (symbolByte_outside h)⟩

/-- A cell keeps `sh`, but for the start bit (R187). -/
theorem cellByte_eq_sh {s : State} {b : Byte} (hs : ¬(s.ph = .frm ∧ cellsDone s = 0)) (hb : cellByte s = .ok b) : b = s.sh := by
  rw [cellByte, if_neg hs] at hb
  exact (Except.ok.inj hb).symm

/-- Settles O48: a `CSTART` step is at mark exactly when it idles, and every other cell is `afterCell` of its byte. -/
theorem cellLevelAndNextPhase : Obligations.CellLevelAndNextPhase := by
  intro s t h
  by_cases hc : s.ph = .cstart
  · by_cases hcount : readCount s = 0#10
    · rw [txStep_cstart_idle hc hcount] at h
      cases h
      simp [hc, hcount]
    · rw [txStep_cstart_first hc hcount] at h
      cases h
      simp [hc, hcount, phaseLevel, enterBreak]
  obtain ⟨b, hb, rfl⟩ := txStep_eq_afterCell hc h
  have hsh (hs : ¬(s.ph = .frm ∧ cellsDone s = 0)) : b = s.sh := cellByte_eq_sh hs hb
  refine ⟨fun hp => absurd hp hc, fun hp => by simp [phaseLevel, hp], ?_, ?_, ?_, ?_, fun hs => by rw [afterCell_sh, hsh hs], ?_, ?_⟩
  · rintro (hp | hp | hp) <;> simp [phaseLevel, hp]
  · intro hp h0; simp [phaseLevel, hp, frameLevel, h0]
  · intro hp h1 h8
    have h0 : cellsDone s ≠ 0 := by omega
    simp [phaseLevel, hp, frameLevel, h0, h8, hsh]
  · intro hp h9
    have h0 : cellsDone s ≠ 0 := by omega
    have h8 : ¬ cellsDone s ≤ 8 := by omega
    simp [phaseLevel, hp, frameLevel, h0, h8]
  · intro _ hmore
    obtain ⟨hph, hsym, hcells⟩ := afterCell_more (b := b) hmore
    exact ⟨hph, hcells, hsym⟩
  · intro _ hlast
    obtain ⟨hph, hsym, hcells⟩ := afterCell_last (b := b) hlast
    rw [hph, hsym]
    refine ⟨hcells, ?_, ?_, ?_, ?_, ?_, ?_⟩ <;> intro hp
    · simp [phaseAfter, symAfter, hp]
    · simp [phaseAfter, symAfter, hp]
    · simp [phaseAfter, symAfter, hp]
    · simp [phaseAfter, symAfter, hp]
    · intro hl; simp [phaseAfter, symAfter, hp, hl]
    · intro hl; simp [phaseAfter, symAfter, hp, hl]

/-! #### What a Transmitter step reads -/

/-- States that agree on the Transmitter's registers, the configuration, the count and every slot (R61). -/
abbrev SameTxView (s t : State) : Prop := SameTx s t ∧ t.cfg = s.cfg ∧ t.accCode = s.accCode ∧ SameSlots s t

theorem SameTxView.cellByte_eq {s t : State} (h : SameTxView s t) : cellByte t = cellByte s := by
  obtain ⟨⟨hph, hk, hover, hsym, hlatched, hsh, hline, hind⟩, hcfg, hacc, hslots⟩ := h
  have hcells : cellsDone t = cellsDone s := by simp only [cellsDone, hk, hover]
  have hsymbol : symbolByte t = symbolByte s := by simp only [symbolByte, memRead, hsym, hslots (s.sym.toNat - 1)]
  simp only [cellByte, hsymbol, hcells, hph, hsh]

theorem SameTxView.sameTx_afterCell {s t : State} (h : SameTxView s t) (b : Byte) : SameTx (afterCell b s) (afterCell b t) := by
  obtain ⟨⟨hph, hk, hover, hsym, hlatched, hsh, hline, hind⟩, hcfg, hacc, hslots⟩ := h
  have hcells : cellsDone t = cellsDone s := by simp only [cellsDone, hk, hover]
  have hlevel : cellLevel b t = cellLevel b s := by rw [cellLevel, cellLevel, hph, hcells]
  have hafter : phaseAfter t = phaseAfter s := by simp only [phaseAfter, hph, hsym, hlatched, hcfg]
  have hsymAfter : symAfter t = symAfter s := by simp only [symAfter, hph, hsym, hlatched]
  simp only [afterCell, hcells, hlevel, hafter, hsymAfter, hph, hcfg]
  split_ifs
  · exact ⟨rfl, rfl, rfl, rfl, hlatched, rfl, rfl, hind⟩
  · exact ⟨hph, rfl, rfl, hsym, hlatched, rfl, rfl, hind⟩

/-- The two states take agreeing steps, or fault alike. -/
abbrev StepsAlike (s t : State) : Prop :=
  (∃ s' t', txStep s = .next s' ∧ txStep t = .next t' ∧ SameTx s' t') ∨ (∃ f, txStep s = .fault f ∧ txStep t = .fault f)

theorem SameTxView.stepsAlike_of_ne_cstart {s t : State} (h : SameTxView s t) (hc : s.ph ≠ .cstart) : StepsAlike s t := by
  obtain ⟨⟨hph, -⟩, -⟩ := id h
  have hct : t.ph ≠ .cstart := hph ▸ hc
  cases hb : cellByte s with
  | ok b => exact .inl ⟨_, _, txStep_of_cellByte_ok hc hb, txStep_of_cellByte_ok hct (h.cellByte_eq.trans hb), h.sameTx_afterCell b⟩
  | error e => exact .inr ⟨e, txStep_of_cellByte_error hb, txStep_of_cellByte_error (h.cellByte_eq.trans hb)⟩

/-- Settles O40: with no tearing both states read the same count, and then take the same cell. -/
theorem transmitterReadsCountAndSlots : Obligations.TransmitterReadsCountAndSlots := by
  intro s t htx hcfg htear hacc hslots
  have hview : SameTxView s t := ⟨htx, hcfg, hacc, hslots⟩
  by_cases hc : s.ph = .cstart
  · obtain ⟨hph, hk, hover, hsym, -, hsh, hline, -⟩ := htx
    have hct : t.ph = .cstart := hph.trans hc
    have hcount : readCount t = readCount s := by
      rw [readCount_whole htear, readCount_whole (hcfg.symm ▸ htear), hacc]
    by_cases h0 : readCount s = 0#10
    · refine .inl ⟨_, _, txStep_cstart_idle hc h0, txStep_cstart_idle hct (hcount.trans h0), ?_⟩
      exact ⟨hph, hk, hover, hsym, hcount, hsh, rfl, congrArg groupsOn hcount⟩
    · have hbrk : SameTxView (enterBreak s) (enterBreak t) :=
        ⟨⟨rfl, rfl, rfl, hsym, hcount, hsh, hline, congrArg groupsOn hcount⟩, hcfg, hacc, hslots⟩
      rw [txStep_cstart_eq_enterBreak hc h0, txStep_cstart_eq_enterBreak hct (hcount ▸ h0)]
      exact hbrk.stepsAlike_of_ne_cstart (by simp [enterBreak])
  · exact hview.stepsAlike_of_ne_cstart hc

end Sys2Proof.Machine
end

section
/-! ### The machine's invariant

The parser, the tables, the frame buffer and the Transmitter each have their own part of `Inv`; each part is kept by the agent that
writes its registers and is left alone by the others (spec/20_memory.md R61). -/

namespace Sys2Proof.Machine

/-! #### The parser's registers -/

theorem parserInv_of_cnt_zero {s : State} (hrs : s.rs = 0x00#8 ∨ isChannelVoice s.rs = true) (h0 : s.cnt = 0#2) : ParserInv s :=
  ⟨hrs, by simp [h0], fun h => absurd h0 h, by simp [h0], fun _ => h0⟩

/-- A message in progress whose status byte has length `len`, with the count below it (R24, R27). -/
theorem parserInv_of_cnt_lt {s : State} {len : Nat} (hrs : s.rs = 0x00#8 ∨ isChannelVoice s.rs = true) (hsysex : s.sysex = false)
    (hge : 0x80 ≤ s.buf[0].toNat) (hne : s.buf[0] ≠ 0xF0#8) (hlen : msgLen s.buf[0] = some len) (hlt : s.cnt.toNat < len)
    (hdata : s.cnt = 2#2 → isData s.buf[1] = true) : ParserInv s := by
  have hle : len ≤ 3 := msgLen_le hlen
  have hcnt : s.cnt ≠ 3#2 := fun h3 => by rw [h3] at hlt; exact absurd (lt_of_lt_of_le hlt hle) (by decide)
  exact ⟨hrs, hcnt, fun _ => ⟨hge, hne, by simp [hlen, hlt]⟩, hdata, by simp [hsysex]⟩

/-- The completion test keeps the invariant when the count has not passed the length: it empties the buffer, or the message goes on
(R134). -/
theorem completeIfFull_parserInv {s : State} {len : Nat} (hrs : s.rs = 0x00#8 ∨ isChannelVoice s.rs = true) (hsysex : s.sysex = false)
    (hge : 0x80 ≤ s.buf[0].toNat) (hne : s.buf[0] ≠ 0xF0#8) (hlen : msgLen s.buf[0] = some len) (hle : s.cnt.toNat ≤ len)
    (hdata : s.cnt = 2#2 → isData s.buf[1] = true) : ParserInv (completeIfFull s) := by
  rw [completeIfFull_of_msgLen hlen]
  split_ifs with hfull
  · obtain ⟨-, ⟨hrs', -⟩, -⟩ := dispatch_frame (bufferedMsg s.buf len) s
    exact parserInv_of_cnt_zero (hrs' ▸ hrs) rfl
  · exact parserInv_of_cnt_lt hrs hsysex hge hne hlen (lt_of_le_of_ne hle hfull) hdata

/-- A status byte of length 2 or 3 has started a message. -/
theorem parserInv_started {s : State} {b rs : Byte} (hrs : rs = 0x00#8 ∨ isChannelVoice rs = true) (hsysex : s.sysex = false)
    (hge : 0x80 ≤ b.toNat) (hlen : msgLen b = some 2 ∨ msgLen b = some 3) :
    ParserInv { s with rs := rs, buf := s.buf.set 0 b, cnt := 1#2 } := by
  have hne : b ≠ 0xF0#8 := by rintro rfl; revert hlen; decide
  have hbuf : (s.buf.set 0 b)[0] = b := Vector.getElem_set_self _
  obtain hlen | hlen := hlen <;>
    exact parserInv_of_cnt_lt hrs hsysex (by simpa using hge) (by simpa using hne) (hbuf ▸ hlen) (by simp) (by simp)

theorem channelVoice_parserInv {b : Byte} {s t : State} (hb : isChannelVoice b = true) (hsysex : s.sysex = false)
    (h : channelVoice b s = .next t) : ParserInv t := by
  have hlen : msgLen b = some 2 ∨ msgLen b = some 3 := msgLen_channelVoice hb
  cases (channelVoice_eq hlen s).symm.trans h
  exact parserInv_started (.inr hb) hsysex (isChannelVoice_iff.mp hb).1 hlen

/-- The running status is a Channel Voice status byte of length 2 or 3, so two buffered bytes do not pass its length (R22, R131). -/
theorem completeIfFull_bufferRunning_parserInv {s : State} (v : Data7) (hrs : isChannelVoice s.rs = true) (hsysex : s.sysex = false) :
    ParserInv (completeIfFull (bufferRunning v s)) := by
  obtain ⟨hge, hle⟩ := isChannelVoice_iff.mp hrs
  have hne : s.rs ≠ 0xF0#8 := fun heq => by rw [heq] at hle; exact absurd hle (by decide)
  have hbuf : (bufferRunning v s).buf[0] = s.rs ∧ (bufferRunning v s).buf[1] = dataByte v := by simp [bufferRunning]
  obtain ⟨len, hlen, h2⟩ : ∃ len, msgLen s.rs = some len ∧ 2 ≤ len := by
    obtain h | h := msgLen_channelVoice hrs <;> exact ⟨_, h, by decide⟩
  exact completeIfFull_parserInv (s := bufferRunning v s) (.inr hrs) hsysex (hbuf.1 ▸ hge) (hbuf.1 ▸ hne) (hbuf.1 ▸ hlen) h2
    fun _ => hbuf.2 ▸ isData_dataByte v

/-- Between steps the count has not reached the length, so with one more byte it does not pass it (R133). -/
theorem completeIfFull_bufferNext_parserInv {s : State} (v : Data7) (hinv : ParserInv s) (hsysex : s.sysex = false) (h0 : s.cnt ≠ 0#2) :
    ParserInv (completeIfFull (bufferNext v s)) := by
  obtain ⟨len, hlen, hlt⟩ := ParserInv.msgLen_of_cnt hinv h0
  obtain ⟨hrs, -, hbuf, -, -⟩ := hinv
  obtain ⟨hge, hne, -⟩ := hbuf h0
  have hlen3 : len ≤ 3 := msgLen_le hlen
  have hpos : s.cnt.toNat ≠ 0 := fun h => h0 (BitVec.eq_of_toNat_eq h)
  have hcount : (bufferNext v s).cnt.toNat = s.cnt.toNat + 1 := by
    show (s.cnt + 1#2).toNat = _
    bv_omega
  have hstatus : (bufferNext v s).buf[0] = s.buf[0] := by simp [bufferNext, hpos]
  have hdata (h2 : (bufferNext v s).cnt = 2#2) : isData (bufferNext v s).buf[1] = true := by
    have h1 : s.cnt.toNat = 1 := by rw [h2] at hcount; exact (Nat.succ.inj hcount).symm
    simp [bufferNext, h1]
  exact completeIfFull_parserInv (s := bufferNext v s) hrs hsysex
    (hstatus ▸ hge) (hstatus ▸ hne) (hstatus ▸ hlen) (hcount ▸ hlt) hdata

/-- An instruction keeps the parser's invariant wherever its row applies, so wherever the decoder gives it (R24, R27). -/
theorem exec_parserInv {i : Instr} {s t : State} (hinv : ParserInv s) (happ : i.appliesIn (decodeCtx s) = true)
    (h : exec i s = .next t) : ParserInv t := by
  obtain ⟨hrs, -, -, -, hidle⟩ := id hinv
  cases i
  case dataNoStatus | sysexByte | rtF8 | rtF9 | rtFA | rtFB | rtFC | rtFD | rtFE => cases h; exact hinv
  case sysexStart | eoxStray => cases h; exact parserInv_of_cnt_zero hrs rfl
  case eox => cases h; exact parserInv_of_cnt_zero hrs (hidle happ)
  case systemReset => cases h; exact parserInv_of_cnt_zero (.inl rfl) rfl
  case noteOff c | noteOn c | polyPressure c | controlChange c | programChange c | channelPressure c | pitchBend c =>
    have hsysex : s.sysex = false := by simpa [Instr.appliesIn, decodeCtx] using happ
    exact channelVoice_parserInv (isChannelVoice_append (by decide) c) hsysex h
  case scF1 | scF2 | scF3 =>
    have hsysex : s.sysex = false := by simpa [Instr.appliesIn, decodeCtx] using happ
    cases (congrArg Host.Outcome.next (startMessage_long (by decide) s)).symm.trans h
    exact parserInv_started hrs hsysex (by decide) (by decide)
  case scF4 | scF5 | scF6 =>
    cases (congrArg Host.Outcome.next (startMessage_short rfl rfl s)).symm.trans h
    exact parserInv_of_cnt_zero hrs rfl
  case dataRunningStatus v =>
    obtain ⟨⟨hsysex, -⟩, hne⟩ : (s.sysex = false ∧ s.cnt = 0#2) ∧ s.rs ≠ 0#8 := by
      simpa [Instr.appliesIn, decodeCtx] using happ
    cases h
    exact completeIfFull_bufferRunning_parserInv v (hrs.resolve_left hne) hsysex
  case dataContinue v =>
    obtain ⟨hsysex, h0⟩ : s.sysex = false ∧ s.cnt ≠ 0#2 := by simpa [Instr.appliesIn, decodeCtx] using happ
    cases h
    exact completeIfFull_bufferNext_parserInv v hinv hsysex h0

/-! #### The tables and the frame buffer -/

theorem accWord_mem_accValues {c : BitVec 3} (h : c.toNat ≤ 4) : accWord c ∈ accValues := by
  revert c; decide

/-- The tables after the count is set to the priority of the modes (R158, R159). -/
theorem setAccCode_tableInv {s : State} {c : BitVec 3} (hmode : ∀ m ∈ s.mode.toList, m.toNat < 0x80) (hc : c = prio s.mode)
    (hnodup : s.hacc.Nodup) (hvalues : ∀ v ∈ s.hacc, v ∈ accValues) : TableInv (setAccCode c s) := by
  refine ⟨hmode, hc, addValue_nodup hnodup, mem_addValue.mpr (.inl rfl), fun v hv => ?_⟩
  obtain rfl | hv := mem_addValue.mp hv
  · exact accWord_mem_accValues (hc ▸ prio_le s.mode)
  · exact hvalues v hv

theorem mapProgramChange_tableInv {s : State} (z : Zone) (prog : Data7) (h : TableInv s) : TableInv (mapProgramChange z prog s) := by
  obtain ⟨hmode, -, hnodup, -, hvalues⟩ := h
  have hprog : (dataByte prog).toNat < 0x80 := Nat.lt_succ_of_le (isData_iff.mp (isData_dataByte prog))
  refine setAccCode_tableInv (s := setZoneMode z (dataByte prog) s) (fun m hm => ?_) rfl hnodup hvalues
  obtain hm | rfl := List.mem_or_eq_of_mem_set (by simpa [Vector.toList_set] using hm)
  · exact hmode m hm
  · exact hprog

/-- What the Parser shares with the Transmitter is as it should be between steps (R28 to R31). -/
abbrev SharedInv (s : State) : Prop := TableInv s ∧ s.fb.wf

theorem dispatch_sharedInv (m : Msg) {s : State} (h : SharedInv s) : SharedInv (dispatch m s) := by
  obtain ⟨htab, hfb⟩ := h
  obtain heq | ⟨z, note, v, on, heq⟩ | ⟨z, prog, heq⟩ := dispatch_cases m s <;> rw [heq]
  · exact ⟨htab, hfb⟩
  · exact ⟨htab, memWrite_wf _ _ hfb⟩
  · exact ⟨mapProgramChange_tableInv z prog htab, hfb⟩

theorem completeIfFull_sharedInv {s : State} (h : SharedInv s) : SharedInv (completeIfFull s) := by
  obtain heq | ⟨m, heq⟩ := completeIfFull_cases s <;> rw [heq]
  · exact h
  · exact dispatch_sharedInv m h

theorem exec_sharedInv {i : Instr} {s t : State} (hinv : SharedInv s) (h : exec i s = .next t) : SharedInv t := by
  obtain ht | ⟨v, -, rfl⟩ | ⟨v, -, rfl⟩ | ⟨-, rfl⟩ := exec_next_cases h
  · rw [ht]; exact hinv
  · exact completeIfFull_sharedInv (s := bufferRunning v s) hinv
  · exact completeIfFull_sharedInv (s := bufferNext v s) hinv
  · obtain ⟨⟨-, -, hnodup, -, hvalues⟩, -⟩ := hinv
    have hmode : ∀ m ∈ (#v[0x00#8, 0x00#8, 0x00#8, 0x00#8] : Vector Byte 4).toList, m.toNat < 0x80 := by decide
    have hprio : 0#3 = prio #v[0x00#8, 0x00#8, 0x00#8, 0x00#8] := by decide
    exact ⟨setAccCode_tableInv (s := { resetParser s with mode := #v[0x00#8, 0x00#8, 0x00#8, 0x00#8] }) hmode hprio hnodup hvalues,
      Memory.clear_wf⟩

/-! #### The Transmitter's registers -/

/-- The ranges of the cell counter and the symbol in a phase (R33, R34). -/
def InPhase (c : Config) (p : Phase) (cells : Nat) (sym latched : BitVec 10) : Prop :=
  match p with
  | .cstart => cells = 0 ∧ sym.toNat ≤ 512
  | .brk => cells < c.breakBits ∧ latched ≠ 0#10 ∧ sym.toNat ≤ 512
  | .mab => cells < c.mabBits ∧ latched ≠ 0#10 ∧ sym.toNat ≤ 512
  | .frm => cells < Config.frameBits ∧ latched ≠ 0#10 ∧ sym.toNat ≤ latched.toNat ∧
      (sym.toNat ≤ 512 ∨ (sym = 513#10 ∧ cells = 0))
  | .mtbs => cells < c.mtbsBits ∧ latched ≠ 0#10 ∧ 1 ≤ sym.toNat ∧ sym.toNat ≤ latched.toNat ∧ sym.toNat ≤ 513
  | .mbb => cells < c.mbbBits ∧ latched ≠ 0#10 ∧ sym = latched ∧ sym.toNat ≤ 512

/-- The invariant of the phases is the range of the phase the Transmitter is in. -/
theorem phaseInv_iff {s : State} : PhaseInv s ↔ InPhase s.cfg s.ph (cellsDone s) s.sym s.latched := by
  cases hp : s.ph <;> simp [PhaseInv, InPhase, hp]

theorem TxInv.congr {s t : State} (h : TxInv s) (htx : SameTx s t) (hcfg : t.cfg = s.cfg) : TxInv t := by
  obtain ⟨hph, hk, hover, hsym, hlatched, -, -, -⟩ := htx
  have hcells : cellsDone t = cellsDone s := by simp only [cellsDone, hk, hover]
  rw [TxInv, phaseInv_iff, hph, hsym, hlatched, hcfg, hcells, ← phaseInv_iff]
  exact h

/-- Every count that is read can be latched: a whole one is 128 times a code up to 4, a torn one is a draw from `Hacc` (R35, R68). -/
theorem readCount_latchable {s : State} (h : TableInv s) : readCount s ∈ latchable s.cfg := by
  obtain ⟨-, hcode, -, hmem, hvalues⟩ := h
  cases htear : s.cfg.accTear with
  | false =>
    have hwhole : ∀ c : BitVec 3, c.toNat ≤ 4 → accCount c ∈ [0#10, 128#10, 256#10, 384#10, 512#10] := by decide
    have hle : s.accCode.toNat ≤ 4 := hcode ▸ prio_le s.mode
    simpa [readCount_whole htear, latchable, htear] using hwhole s.accCode hle
  | true =>
    obtain ⟨va, hva, vb, hvb, hcount⟩ := readCount_torn htear hmem
    obtain ⟨-, hsix⟩ := tornCount_values (hvalues va hva) (hvalues vb hvb)
    rw [← hcount] at hsix
    simpa [latchable, htear, ← BitVec.toNat_inj] using hsix

/-- A cycle start stays in `CSTART`, or enters the BREAK with a nonzero count latched and one cell emitted (R183, R185). -/
theorem txStep_cstart_phaseInv {s t : State} (hlegal : s.cfg.legal = true) (hinv : PhaseInv s) (hp : s.ph = .cstart)
    (h : txStep s = .next t) : PhaseInv t := by
  obtain ⟨h0, hsym⟩ : cellsDone s = 0 ∧ s.sym.toNat ≤ 512 := by simpa [phaseInv_iff, hp, InPhase] using hinv
  obtain ⟨hbreak, -⟩ := legal_iff.mp hlegal
  rw [phaseInv_iff]
  by_cases hcount : readCount s = 0#10
  · cases (txStep_cstart_idle hp hcount).symm.trans h
    simp only [resetHacc_ph, emit_ph, hp]
    exact ⟨h0, hsym⟩
  · cases (txStep_cstart_first hp hcount).symm.trans h
    obtain ⟨hph, hsym', hcells⟩ := afterCell_enterBreak hlegal s.sh
    have hlatched : (afterCell s.sh (enterBreak s)).latched = readCount s := afterCell_latched _ _
    have hcfg : (afterCell s.sh (enterBreak s)).cfg = s.cfg := afterCell_cfg _ _
    rw [hph, hsym', hcells, hlatched, hcfg]
    exact ⟨by omega, hcount, hsym⟩

/-- A cell that is not the last of its phase stays in the phase's range: a start bit that answers is not that of symbol 513. -/
theorem inPhase_more {s : State} {b : Byte} (hinv : PhaseInv s) (hc : s.ph ≠ .cstart) (hb : cellByte s = .ok b)
    (hmore : cellsDone s + 1 ≠ phaseLength s.cfg s.ph) : InPhase s.cfg s.ph (cellsDone s + 1) s.sym s.latched := by
  rw [phaseInv_iff] at hinv
  cases hp : s.ph with
  | cstart => exact absurd hp hc
  | brk | mab | mtbs | mbb =>
    simp only [InPhase, phaseLength, hp] at hinv hmore ⊢
    obtain ⟨hlt, hrest⟩ := hinv
    exact ⟨by omega, hrest⟩
  | frm =>
    simp only [InPhase, phaseLength, hp] at hinv hmore ⊢
    obtain ⟨hlt, hne, hle, h512⟩ := hinv
    refine ⟨by omega, hne, hle, .inl (h512.resolve_right ?_)⟩
    rintro ⟨h513, h0⟩
    rw [cellByte, if_pos ⟨hp, h0⟩, symbolByte_outside (by rw [h513]; decide)] at hb
    cases hb

theorem le_512_or_eq_513 {x : BitVec 10} (h : x.toNat ≤ 513) : x.toNat ≤ 512 ∨ x = 513#10 := by bv_omega

/-- After the last cell of a phase the next phase starts in its range (R186, R190 to R192). -/
theorem inPhase_last {s : State} (hlegal : s.cfg.legal = true) (hinv : PhaseInv s) (hc : s.ph ≠ .cstart)
    (hlast : cellsDone s + 1 = phaseLength s.cfg s.ph) : InPhase s.cfg (phaseAfter s) 0 (symAfter s) s.latched := by
  obtain ⟨-, hmab⟩ := legal_iff.mp hlegal
  rw [phaseInv_iff] at hinv
  cases hp : s.ph with
  | cstart => exact absurd hp hc
  | brk =>
    simp only [InPhase, phaseAfter, symAfter, hp] at hinv ⊢
    obtain ⟨-, hne, hle⟩ := hinv
    exact ⟨by omega, hne, hle⟩
  | mab =>
    simp only [InPhase, phaseAfter, symAfter, hp] at hinv ⊢
    obtain ⟨-, hne, -⟩ := hinv
    exact ⟨by decide, hne, by simp, by simp⟩
  | mtbs =>
    simp only [InPhase, phaseAfter, symAfter, hp] at hinv ⊢
    obtain ⟨-, hne, -, hle, h513⟩ := hinv
    exact ⟨by decide, hne, hle, (le_512_or_eq_513 h513).imp_right fun h => ⟨h, trivial⟩⟩
  | mbb =>
    simp only [InPhase, phaseAfter, symAfter, hp] at hinv ⊢
    obtain ⟨-, -, -, hle⟩ := hinv
    exact ⟨trivial, hle⟩
  | frm =>
    simp only [InPhase, phaseLength, Config.frameBits, phaseAfter, symAfter, hp] at hinv hlast ⊢
    obtain ⟨-, hne, hle, h512 | ⟨-, h0⟩⟩ := hinv
    · by_cases hend : s.sym = s.latched
      · by_cases hmbb : s.cfg.mbbBits = 0
        · simp only [if_pos hend, if_pos hmbb]
          exact ⟨trivial, h512⟩
        · simp only [if_pos hend, if_neg hmbb]
          exact ⟨by omega, hne, hend, h512⟩
      · have hlt : s.sym.toNat < s.latched.toNat := by bv_omega
        have hsucc : (s.sym + 1#10).toNat = s.sym.toNat + 1 := by bv_omega
        by_cases hmtbs : s.cfg.mtbsBits = 0
        · simp only [if_neg hend, if_pos hmtbs]
          exact ⟨by decide, hne, by omega, (le_512_or_eq_513 (by omega)).imp_right fun h => ⟨h, trivial⟩⟩
        · simp only [if_neg hend, if_neg hmtbs]
          exact ⟨by omega, hne, by omega, by omega, by omega⟩
    · omega

theorem txStep_phaseInv {s t : State} (hlegal : s.cfg.legal = true) (hinv : PhaseInv s) (h : txStep s = .next t) : PhaseInv t := by
  by_cases hc : s.ph = .cstart
  · exact txStep_cstart_phaseInv hlegal hinv hc h
  obtain ⟨b, hb, rfl⟩ := txStep_eq_afterCell hc h
  rw [phaseInv_iff, afterCell_latched, afterCell_cfg]
  by_cases hlast : cellsDone s + 1 = phaseLength s.cfg s.ph
  · obtain ⟨hph, hsym, hcells⟩ := afterCell_last (b := b) hlast
    rw [hph, hsym, hcells]
    exact inPhase_last hlegal hinv hc hlast
  · obtain ⟨hph, hsym, hcells⟩ := afterCell_more (b := b) hlast
    rw [hph, hsym, hcells]
    exact inPhase_more hinv hc hb hlast

/-- Only a cycle start latches a count, the one it reads (R182). -/
theorem txStep_latched {s t : State} (h : txStep s = .next t) : t.latched = readCount s ∨ t.latched = s.latched := by
  by_cases hc : s.ph = .cstart
  · by_cases hcount : readCount s = 0#10
    · cases (txStep_cstart_idle hc hcount).symm.trans h
      exact .inl rfl
    · cases (txStep_cstart_first hc hcount).symm.trans h
      exact .inl (afterCell_latched _ _)
  · exact .inr (onlyCycleStartWritesIndicators s t hc h).2

theorem txStep_txInv {s t : State} (hlegal : s.cfg.legal = true) (htab : TableInv s) (hinv : TxInv s) (h : txStep s = .next t) :
    TxInv t := by
  obtain ⟨hlatch, hphase⟩ := hinv
  have hcfg : t.cfg = s.cfg := by rw [txStep_onlyTx h]
  refine ⟨?_, txStep_phaseInv hlegal hphase h⟩
  obtain hl | hl := txStep_latched h <;> rw [hl, hcfg]
  · exact readCount_latchable htab
  · exact hlatch

/-! #### The agents' steps -/

/-- A Parser step keeps the invariant: the decoder gives it an instruction whose row applies (R91). -/
theorem exec_heldInstr_inv {s t : State} (hinv : Inv s) (h : exec (heldInstr s) (consumeByte s) = .next t) : Inv t := by
  obtain ⟨hparser, htab, hfb, htx⟩ := hinv
  obtain ⟨-, happ, -⟩ := decodeByte_readsAs (decodeCtx s) s.rxHold
  obtain ⟨hsame, -, hcfg, -, -⟩ := exec_frame h
  obtain ⟨htab', hfb'⟩ := exec_sharedInv (s := consumeByte s) ⟨htab, hfb⟩ h
  exact ⟨exec_parserInv (s := consumeByte s) hparser happ h, htab', hfb', htx.congr hsame hcfg⟩

theorem txStep_inv {s t : State} (hlegal : s.cfg.legal = true) (hinv : Inv s) (h : txStep s = .next t) : Inv t := by
  obtain ⟨hparser, htab, hfb, htx⟩ := hinv
  have htx' : TxInv t := txStep_txInv hlegal htab htx h
  obtain ⟨hmode, hcode, -, -, -⟩ := htab
  have hmem : accWord s.accCode ∈ accValues := accWord_mem_accValues (hcode ▸ prio_le s.mode)
  have htab' : TableInv { s with hacc := [accWord s.accCode] } :=
    ⟨hmode, hcode, List.nodup_singleton _, List.mem_singleton.mpr rfl, fun v hv => List.mem_singleton.mp hv ▸ hmem⟩
  obtain ⟨hparser', htab', hfb'⟩ : ParserInv t ∧ TableInv t ∧ t.fb.wf := by
    rw [txStep_onlyTx h]
    exact ⟨hparser, htab', hfb⟩
  exact ⟨hparser', htab', hfb', htx'⟩

/-- Settles O55: each agent keeps the part it writes, and the others' parts do not see its step. -/
theorem stepKeepsInv : Obligations.StepKeepsInv := by
  intro s t hinv h
  obtain ⟨hlegal, ⟨b, -, rfl⟩ | ⟨-, -, hexec⟩ | ⟨-, -, rfl⟩ | ⟨-, htx⟩⟩ := step_cases h
  · exact hinv
  · exact exec_heldInstr_inv (s := takeMove s) hinv hexec
  · exact hinv
  · exact txStep_inv (s := takeMove s) hlegal hinv htx

/-- Settles O54: nothing is in progress at power-on, and every value is 0. -/
theorem powerOnMeetsInv : Obligations.PowerOnMeetsInv := by
  intro c
  have htab : TableInv (State.powerOn c) := by simp [TableInv, State.powerOn, prio, modeActive, accWord]
  have hlatch : 0#10 ∈ latchable c := by unfold latchable; split_ifs <;> simp
  exact ⟨parserInv_of_cnt_zero (.inl rfl) rfl, htab, Memory.clear_wf, hlatch, phaseInv_iff.mpr ⟨rfl, by simp [State.powerOn]⟩⟩

end Sys2Proof.Machine
end

section
/-! ### Which steps answer, and what each agent leaves alone

Only a start bit with no slot to read stops a legal configuration; the safety claims, the agents' frames and the reset event follow
from this and from the cases of `step` and `exec` (spec/60_exceptions.md R220, R221; spec/20_memory.md R61, R69). -/

namespace Sys2Proof.Machine

/-! #### The step of each move -/

/-- Settles O6: in a legal configuration the Parser's step runs the held instruction. -/
theorem stepRunsDecodedInstr : Obligations.StepRunsDecodedInstr := by
  intro s i rest hlegal hm hfull hdec
  have hi : heldInstr s = i := congrArg Prod.fst (Except.ok.inj hdec)
  rw [step_of_legal hlegal, hm, ← hi]
  exact parserStep_full (s := takeMove s) hfull

/-- Settles O7: each move is its agent's step on the state with the move taken. -/
theorem stepOfOtherMoves : Obligations.StepOfOtherMoves := by
  refine ⟨fun s m ms h => by rw [nextMove, h], fun s b hlegal hm => ?_, fun s hlegal hm hempty => ?_, fun s hlegal hm => ?_⟩ <;>
    rw [step_of_legal hlegal, hm]
  · rfl
  · exact parserStep_empty (s := takeMove s) hempty
  · rfl

/-! #### The one fault of a legal configuration -/

/-- A Transmitter step answers, unless it is the start bit of a symbol that has no slot (R69). -/
theorem txStep_answers (s : State) :
    (∃ t, txStep s = .next t) ∨
      (s.ph = .frm ∧ cellsDone s = 0 ∧ 513 ≤ s.sym.toNat ∧ txStep s = .fault (.slotIndexOutOfRange (s.sym.toNat - 1))) := by
  by_cases hc : s.ph = .cstart
  · exact .inl ⟨_, txStep_cstart hc⟩
  by_cases hs : s.ph = .frm ∧ cellsDone s = 0
  · obtain ⟨hp, h0⟩ := hs
    by_cases hlt : s.sym.toNat ≤ 512
    · have hb : ∃ b, symbolByte s = .ok b := by
        by_cases hstart : s.sym = 0#10
        · exact ⟨_, symbolByte_start hstart⟩
        · exact ⟨_, symbolByte_slot (by bv_omega) hlt⟩
      obtain ⟨b, hb⟩ := hb
      exact .inl ⟨_, (txStep_startBit hp h0).1 b hb⟩
    · have hge : 513 ≤ s.sym.toNat := by omega
      exact .inr ⟨hp, h0, hge, (txStep_startBit hp h0).2 _ (symbolByte_outside hge)⟩
  · exact .inl ⟨_, txStep_of_not_startBit hc hs⟩

/-- A step of a legal configuration answers, unless it is the Transmitter's at such a start bit. -/
theorem step_answers {s : State} (hlegal : s.cfg.legal = true) :
    (∃ t, step s = .next t) ∨
      (s.ph = .frm ∧ cellsDone s = 0 ∧ 513 ≤ s.sym.toNat ∧ step s = .fault (.slotIndexOutOfRange (s.sym.toNat - 1))) := by
  rw [step_of_legal hlegal]
  cases nextMove s with
  | deliver b => exact .inl ⟨_, rfl⟩
  | parser =>
    cases hfull : s.rxFull with
    | true =>
      obtain ⟨t, ht, -⟩ := exec_rows (heldInstr (takeMove s)) (consumeByte (takeMove s))
      exact .inl ⟨t, (parserStep_full (s := takeMove s) hfull).trans ht⟩
    | false => exact .inl ⟨_, parserStep_empty (s := takeMove s) hfull⟩
  | transmitter => exact txStep_answers (takeMove s)

/-- Settles O8: an illegal configuration is refused at once, and the one fault of a legal one is a slot read. -/
theorem configBelowMinimaRefused : Obligations.ConfigBelowMinimaRefused := by
  intro s
  cases hlegal : s.cfg.legal with
  | false =>
    have hmin : ¬(23 ≤ s.cfg.breakBits ∧ 2 ≤ s.cfg.mabBits) := fun h => by simp [legal_iff.mpr h] at hlegal
    exact iff_of_true (by simp [step, hlegal]) (by omega)
  | true =>
    obtain ⟨hbreak, hmab⟩ := legal_iff.mp hlegal
    refine iff_of_false (fun hfault => ?_) (by omega)
    obtain ⟨t, ht⟩ | ⟨-, -, -, ht⟩ := step_answers hlegal <;> rw [ht] at hfault <;> cases hfault

/-- Of the counts a cycle can latch only the torn 640 is above 512 (R35, R68). -/
theorem eq_640_of_latchable {c : Config} {n : BitVec 10} (hn : n ∈ latchable c) (hge : 513 ≤ n.toNat) :
    c.accTear = true ∧ n = 640#10 := by
  have hwhole : ∀ n ∈ [0#10, 128#10, 256#10, 384#10, 512#10], n.toNat ≤ 512 := by decide
  have htorn : ∀ n ∈ [0#10, 128#10, 256#10, 384#10, 512#10, 640#10], n.toNat ≤ 512 ∨ n = 640#10 := by decide
  unfold latchable at hn
  split_ifs at hn with htear
  · exact ⟨htear, (htorn n hn).resolve_left (by omega)⟩
  · exact absurd (hwhole n hn) (by omega)

/-- Between steps a start bit without a slot is that of symbol 513, in a cycle that latched 640 (R34). -/
theorem TxInv.of_no_slot {s : State} (hinv : TxInv s) (hp : s.ph = .frm) (hsym : 513 ≤ s.sym.toNat) :
    s.sym = 513#10 ∧ s.cfg.accTear = true ∧ s.latched = 640#10 := by
  obtain ⟨hlatch, hphase⟩ := hinv
  rw [phaseInv_iff, hp] at hphase
  obtain ⟨-, -, hle, h512 | ⟨h513, -⟩⟩ := hphase
  · omega
  · exact ⟨h513, eq_640_of_latchable hlatch (hsym.trans hle)⟩

/-- Settles O57: of the steps that do not answer, the invariant leaves the start bit of symbol 513. -/
theorem onlyFaultIsSlot512 : Obligations.OnlyFaultIsSlot512 := by
  rintro s f ⟨-, -, -, htx⟩ hlegal hfault
  obtain ⟨t, ht⟩ | ⟨hp, -, hge, ht⟩ := step_answers hlegal <;> cases ht.symm.trans hfault
  obtain ⟨hsym, htear, hlatched⟩ := htx.of_no_slot hp hge
  exact ⟨by rw [hsym]; rfl, htear, hlatched⟩

/-- Settles O56: without tearing no cycle latches 640. -/
theorem noFaultWithoutTear : Obligations.NoFaultWithoutTear := by
  rintro s ⟨-, -, -, htx⟩ hlegal htear
  refine (step_answers hlegal).resolve_right ?_
  rintro ⟨hp, -, hge, -⟩
  obtain ⟨-, htear', -⟩ := htx.of_no_slot hp hge
  simp [htear] at htear'

/-- Settles O60: the count of cells is below the length of the phase, so it fits the 16 bits of `k`. -/
theorem cellCounterFits16Bits : Obligations.CellCounterFits16Bits := by
  rintro s ⟨-, -, -, -, hphase⟩ hbreak hmab hmtbs hmbb
  rw [phaseInv_iff] at hphase
  have hle : cellsDone s ≤ 65535 := by
    cases hp : s.ph <;> simp only [InPhase, Config.frameBits, hp] at hphase <;> omega
  obtain ⟨hover, hk⟩ := cellsDone_fits hle
  exact ⟨hover, hk.symm⟩

/-! #### What the agents leave alone -/

/-- Settles O58: every instruction answers, and none writes the receive register the Parser has emptied. -/
theorem everyByteIsConsumed : Obligations.EveryByteIsConsumed := by
  intro s hlegal hm hfull
  obtain ⟨t, ht, -⟩ := exec_rows (heldInstr s) (consumeByte (takeMove s))
  obtain ⟨-, ⟨-, hrx⟩, -⟩ := exec_frame ht
  refine ⟨t, ?_, hrx⟩
  rw [step_of_legal hlegal, hm]
  exact (parserStep_full (s := takeMove s) hfull).trans ht

/-- Settles O38: the frame of the instructions, and the Transmitter's registers as the only ones its step writes. -/
theorem oneWriterPerRegister : Obligations.OneWriterPerRegister := by
  refine ⟨fun i s => ?_, fun s t h => ?_⟩
  · obtain ⟨t, ht, -⟩ := exec_rows i s
    exact ⟨t, ht, exec_frame ht⟩
  · rw [txStep_onlyTx h]
    simp [SameRx, SameParser, SameEnv]

theorem cellsLeft_congr {s t : State} (htx : SameTx s t) (hcfg : t.cfg = s.cfg) : cellsLeft t = cellsLeft s := by
  obtain ⟨hph, hk, hover, hsym, hlatched, -, -, -⟩ := htx
  simp only [cellsLeft, cellsDone, hph, hk, hover, hsym, hlatched, hcfg]

/-- Settles O53: a delivery and an instruction leave the Transmitter's registers alone. -/
theorem inputNeverCancelsCycle : Obligations.InputNeverCancelsCycle := by
  intro s t h hm
  suffices hsame : SameTx s t ∧ t.cfg = s.cfg from ⟨hsame.1, cellsLeft_congr hsame.1 hsame.2⟩
  obtain ⟨-, ⟨b, -, rfl⟩ | ⟨-, -, hexec⟩ | ⟨-, -, rfl⟩ | ⟨htx, -⟩⟩ := step_cases h
  · simp [SameTx]
  · obtain ⟨hsame, -, hcfg, -⟩ := exec_frame hexec
    exact ⟨hsame, hcfg⟩
  · simp [SameTx]
  · exact absurd htx hm

/-! #### The reset event -/

theorem heldInstr_eq_systemReset (s : State) : heldInstr s = .systemReset ↔ s.rxHold = 0xFF#8 := by
  refine ⟨fun h => ?_, fun h => by rw [heldInstr, h]; rfl⟩
  obtain ⟨-, -, hbyte⟩ := decodeByte_readsAs (decodeCtx s) s.rxHold
  rw [← hbyte, ← heldInstr, h]
  rfl

theorem exec_resetEvents {i : Instr} {s t : State} (h : exec i s = .next t) :
    t.resetEvents = s.resetEvents + if i = .systemReset then 1 else 0 := by
  obtain ht | ⟨v, rfl, rfl⟩ | ⟨v, rfl, rfl⟩ | ⟨rfl, rfl⟩ := exec_next_cases h
  · have hi : i ≠ .systemReset := by
      rintro rfl
      have h1 : t.resetEvents = s.resetEvents + 1 := Host.Outcome.next.inj h ▸ rfl
      rw [ht] at h1
      simp at h1
    rw [if_neg hi, ht]
    rfl
  · obtain ⟨-, -, -, -, -, -, hevents⟩ := completeIfFull_frame (bufferRunning v s)
    exact hevents
  · obtain ⟨-, -, -, -, -, -, hevents⟩ := completeIfFull_frame (bufferNext v s)
    exact hevents
  · rfl

/-- Settles O42: of all steps only the Parser's runs an instruction, and the System Reset is that of the byte 0xFF alone. -/
theorem resetEventOncePerResetByte : Obligations.ResetEventOncePerResetByte := by
  intro s t h
  obtain ⟨-, ⟨b, hm, rfl⟩ | ⟨hm, hfull, hexec⟩ | ⟨hm, hempty, rfl⟩ | ⟨hm, htx⟩⟩ := step_cases h
  · simp [hm]
  · rw [exec_resetEvents hexec]
    simp [hm, hfull, heldInstr_eq_systemReset]
  · simp [hempty]
  · rw [txStep_onlyTx htx]
    simp [hm]

/-! #### The frame buffer's ports and the power-on values -/

/-- Settles O34: inside the frame buffer the read port reads the slot, and a write changes its own slot only. -/
theorem slotReadAfterWrite : Obligations.SlotReadAfterWrite := by
  intro s i v j
  split_ifs with hout heq
  · exact memRead_of_ge hout
  · rw [memRead_of_lt (by omega), memWrite_fb, heq, Memory.read_write_same]
  · rw [memRead_of_lt (by omega), memRead_of_lt (by omega), memWrite_fb, Memory.read_write_other _ _ heq]

/-- Settles O9: the values of `State.powerOn`, field by field. -/
theorem powerOnValues : Obligations.PowerOnValues := fun _ =>
  ⟨rfl, rfl, rfl, rfl, rfl, rfl, rfl, rfl, fun _ => rfl, rfl, rfl, rfl, rfl, rfl, rfl, rfl, rfl, rfl⟩

end Sys2Proof.Machine
end

section
/-! ### Whole messages

A message is its status byte and its data bytes: the bytes are buffered one by one and the last of them dispatches the message. What a
message does is then what `dispatch` does with it (spec/40_parser.md sections 5 to 7; spec/41_mapper.md section 2). -/

namespace Sys2Proof.Machine

/-! #### Instructions in a row -/

theorem execSeq_cons {i : Instr} {s t : State} (h : exec i s = .next t) (is : List Instr) : execSeq (i :: is) s = execSeq is t := by
  simp only [execSeq, h]

theorem execSeq_singleton (i : Instr) (s : State) : execSeq [i] s = exec i s := by
  obtain ⟨t, ht, -⟩ := exec_rows i s
  rw [execSeq_cons ht, ht]
  rfl

/-- Dispatch neither reads nor writes the parser's registers (R150). -/
theorem dispatch_withParser (m : Msg) (s : State) (rs : Byte) (buf : Vector Byte 3) (cnt : BitVec 2) :
    dispatch m { s with rs := rs, buf := buf, cnt := cnt } = { dispatch m s with rs := rs, buf := buf, cnt := cnt } := by
  unfold dispatch
  split_ifs
  · rfl
  cases zoneOf (statusChan m.status) with
  | none => rfl
  | some z =>
    have hmode : zoneMode z { s with rs := rs, buf := buf, cnt := cnt } = zoneMode z s := rfl
    simp only [mapZone]
    split
    case h_1 => simp only [mapNoteOff, hmode]; split_ifs <;> rfl
    case h_3 => simp only [mapPolyPressure, hmode]; split_ifs <;> rfl
    all_goals rfl

theorem buf_set_zero_set_one (buf : Vector Byte 3) (b d : Byte) : (buf.set 0 b).set 1 d = #v[b, d, buf[2]] := by
  ext i hi
  interval_cases i <;> simp

/-- The data byte of a message of length 2 completes it (R133, R134). -/
theorem exec_dataContinue_second {b : Byte} (hlen : msgLen b = some 2) (s : State) (rs : Byte) (d : Data7) :
    exec (.dataContinue d) { s with rs := rs, buf := s.buf.set 0 b, cnt := 1#2 } =
      .next { dispatch ⟨b, some d, none⟩ s with rs := rs, buf := #v[b, dataByte d, s.buf[2]], cnt := 0#2 } := by
  rw [exec_dataContinue (len := 2) (by simp) (by simp) (by simpa using hlen)]
  simp [buf_set_zero_set_one, bufferedMsg, dispatch_withParser]

/-- The first data byte of a message of length 3 waits behind the status byte (R133). -/
theorem exec_dataContinue_waits {b : Byte} (hlen : msgLen b = some 3) (s : State) (rs : Byte) (d : Data7) :
    exec (.dataContinue d) { s with rs := rs, buf := s.buf.set 0 b, cnt := 1#2 } =
      .next { s with rs := rs, buf := #v[b, dataByte d, s.buf[2]], cnt := 2#2 } := by
  rw [exec_dataContinue (len := 3) (by simp) (by simp) (by simpa using hlen)]
  simp [buf_set_zero_set_one]

/-- The second data byte of a message of length 3 completes it (R133, R134). -/
theorem exec_dataContinue_third {b : Byte} (hlen : msgLen b = some 3) (s : State) (rs x : Byte) (d e : Data7) :
    exec (.dataContinue e) { s with rs := rs, buf := #v[b, dataByte d, x], cnt := 2#2 } =
      .next { dispatch ⟨b, some d, some e⟩ s with rs := rs, buf := #v[b, dataByte d, dataByte e], cnt := 0#2 } := by
  rw [exec_dataContinue (len := 3) (by simp) (by simp) (by simpa using hlen)]
  simp [bufferedMsg, dispatch_withParser]

section Message

variable {i : Instr} {b rs : Byte} {s : State} (hi : exec i s = .next { s with rs := rs, buf := s.buf.set 0 b, cnt := 1#2 })
include hi

/-- A message of length 2, whatever message was in progress (R110, R134). -/
theorem execSeq_message_two (hlen : msgLen b = some 2) (d : Data7) :
    execSeq [i, .dataContinue d] s =
      .next { dispatch ⟨b, some d, none⟩ s with rs := rs, buf := #v[b, dataByte d, s.buf[2]], cnt := 0#2 } := by
  rw [execSeq_cons hi, execSeq_singleton, exec_dataContinue_second hlen]

/-- A message of length 3, whatever message was in progress (R110, R134). -/
theorem execSeq_message_three (hlen : msgLen b = some 3) (d e : Data7) :
    execSeq [i, .dataContinue d, .dataContinue e] s =
      .next { dispatch ⟨b, some d, some e⟩ s with rs := rs, buf := #v[b, dataByte d, dataByte e], cnt := 0#2 } := by
  rw [execSeq_cons hi, execSeq_cons (exec_dataContinue_waits hlen s rs d), execSeq_singleton, exec_dataContinue_third hlen]

end Message

/-! #### Running status -/

theorem statusType_append_statusChan (b : Byte) : statusType b ++ statusChan b = b := by
  revert b; decide +kernel

/-- The row of a Channel Voice status byte is executed as the byte it was read from (R123). -/
theorem exec_decodeStatus {b : Byte} (h : isChannelVoice b = true) (s : State) : exec (decodeStatus b) s = channelVoice b s := by
  have hbyte : ∀ ty : BitVec 4, statusType b = ty → channelVoice (ty ++ statusChan b) s = channelVoice b s := by
    rintro ty rfl
    rw [statusType_append_statusChan]
  have htype : statusType b ∈ [0x8#4, 0x9#4, 0xA#4, 0xB#4, 0xC#4, 0xD#4, 0xE#4] := by
    clear hbyte
    revert b; decide +kernel
  simp only [List.mem_cons, List.not_mem_nil, or_false] at htype
  obtain hty | hty | hty | hty | hty | hty | hty := htype <;> simp only [decodeStatus, hty] <;> exact hbyte _ hty

/-- A Channel Voice status byte repeated under its own running status. -/
theorem exec_decodeStatus_rs {s : State} (h : isChannelVoice s.rs = true) :
    exec (decodeStatus s.rs) s = .next { s with rs := s.rs, buf := s.buf.set 0 s.rs, cnt := 1#2 } := by
  rw [exec_decodeStatus h, channelVoice_eq (msgLen_channelVoice h)]

/-- One data byte under a running status of length 2 is a whole message (R131, R134). -/
theorem execSeq_running_two {s : State} (hlen : msgLen s.rs = some 2) (d : Data7) :
    execSeq [.dataRunningStatus d] s =
      .next { dispatch ⟨s.rs, some d, none⟩ s with rs := s.rs, buf := #v[s.rs, dataByte d, s.buf[2]], cnt := 0#2 } := by
  rw [execSeq_singleton, exec_dataRunningStatus hlen, if_pos rfl]
  simp [bufferedMsg, dispatch_withParser]

/-- Two data bytes under a running status of length 3 are a whole message (R131, R133, R134). -/
theorem execSeq_running_three {s : State} (hlen : msgLen s.rs = some 3) (d e : Data7) :
    execSeq [.dataRunningStatus d, .dataContinue e] s =
      .next { dispatch ⟨s.rs, some d, some e⟩ s with rs := s.rs, buf := #v[s.rs, dataByte d, dataByte e], cnt := 0#2 } := by
  have hwaits : exec (.dataRunningStatus d) s = .next { s with rs := s.rs, buf := #v[s.rs, dataByte d, s.buf[2]], cnt := 2#2 } := by
    rw [exec_dataRunningStatus hlen, if_neg (by decide)]
  rw [execSeq_cons hwaits, execSeq_singleton, exec_dataContinue_third hlen]

/-- Settles O24: both sides dispatch the same message and leave the same buffer. -/
theorem runningStatusRepeatsStatus : Obligations.RunningStatusRepeatsStatus := by
  refine ⟨fun s d e hcv hlen => ?_, fun s d hcv hlen => ?_⟩
  · rw [execSeq_running_three hlen, execSeq_message_three (exec_decodeStatus_rs hcv) hlen]
  · rw [execSeq_running_two hlen, execSeq_message_two (exec_decodeStatus_rs hcv) hlen]

/-! #### Messages with no effect -/

/-- A message whose handler, on a zone's channel, does nothing has no effect on any channel (R151). -/
theorem dispatch_of_mapZone {m : Msg} {s : State} (h : ∀ z, mapZone z m s = s) : dispatch m s = s := by
  unfold dispatch
  split_ifs
  · rfl
  · cases zoneOf (statusChan m.status) with
    | none => rfl
    | some z => exact h z

theorem dispatch_controlChange (c : Chan) (x v : Data7) (s : State) : dispatch ⟨0xB#4 ++ c, some x, some v⟩ s = s :=
  dispatch_of_mapZone fun z => by simp [mapZone, mapControlChange]

theorem dispatch_channelPressure (c : Chan) (p : Data7) (s : State) : dispatch ⟨0xD#4 ++ c, some p, none⟩ s = s :=
  dispatch_of_mapZone fun z => by simp [mapZone, mapChannelPressure]

theorem dispatch_pitchBend (c : Chan) (lo hi : Data7) (s : State) : dispatch ⟨0xE#4 ++ c, some lo, some hi⟩ s = s :=
  dispatch_of_mapZone fun z => by simp [mapZone, mapPitchBend]

/-- Settles O29: the message is buffered and dispatched with no effect, and so is its repetition. -/
theorem controlChangeMessage : Obligations.ControlChangeMessage := by
  intro s c x v
  have hlen : msgLen (0xB#4 ++ c) = some 3 := msgLen_append_three (by decide) c
  refine ⟨?_, fun hrs => ?_⟩
  · rw [execSeq_message_three (i := .controlChange c) (channelVoice_eq (.inr hlen) s) hlen, dispatch_controlChange]
  · rw [execSeq_running_three (hrs ▸ hlen), hrs, dispatch_controlChange, ← hrs]

/-- Settles O30: the message is dispatched with no effect, and each data byte under its running status is one more. -/
theorem channelPressureMessage : Obligations.ChannelPressureMessage := by
  intro s c p q
  have hlen : msgLen (0xD#4 ++ c) = some 2 := msgLen_append_two (by decide) c
  refine ⟨?_, fun hrs => ?_⟩
  · rw [execSeq_message_two (i := .channelPressure c) (channelVoice_eq (.inl hlen) s) hlen, dispatch_channelPressure]
  · rw [← execSeq_singleton, execSeq_running_two (hrs ▸ hlen), hrs, dispatch_channelPressure, ← hrs]

/-- Settles O31: the message is buffered and dispatched with no effect. -/
theorem pitchBendMessage : Obligations.PitchBendMessage := by
  intro s c lo hi
  have hlen : msgLen (0xE#4 ++ c) = some 3 := msgLen_append_three (by decide) c
  rw [execSeq_message_three (i := .pitchBend c) (channelVoice_eq (.inr hlen) s) hlen, dispatch_pitchBend]

/-- Settles O19: a System message is dispatched with no effect, and `rs` is not its own. -/
theorem systemCommonMessagesNoEffect : Obligations.SystemCommonMessagesNoEffect := by
  intro s d e
  obtain ⟨h1, h2, h3, h4, h5, h6⟩ := systemCommonStatusStarts s
  obtain ⟨hF1, hF2, hF3⟩ : statusType 0xF1#8 = 0xF#4 ∧ statusType 0xF2#8 = 0xF#4 ∧ statusType 0xF3#8 = 0xF#4 := by decide
  refine ⟨?_, ?_, ?_, (execSeq_singleton _ s).trans h4, (execSeq_singleton _ s).trans h5, (execSeq_singleton _ s).trans h6⟩
  · rw [execSeq_message_two (rs := s.rs) h1 rfl, dispatch_system (m := ⟨0xF1#8, some d, none⟩) hF1, buf_set_zero_set_one]
  · rw [execSeq_message_three (rs := s.rs) h2 rfl, dispatch_system (m := ⟨0xF2#8, some d, some e⟩) hF2]
  · rw [execSeq_message_two (rs := s.rs) h3 rfl, dispatch_system (m := ⟨0xF3#8, some d, none⟩) hF3, buf_set_zero_set_one]

/-! #### Messages that write a slot -/

/-- The zone a channel is, if it is one, has the channel's number, and its mode is the entry of that number (R151). -/
theorem zone_cases (c : Chan) (s : State) :
    (zoneOf c = none ∧ ¬ c.toNat < 4 ∧ s.mode[c.toNat]? = none) ∨
      ∃ z, zoneOf c = some z ∧ c.toNat = z.toNat ∧ c.toNat < 4 ∧ s.mode[c.toNat]? = some (zoneMode z s) := by
  cases hz : zoneOf c with
  | none =>
    have hge : 4 ≤ c.toNat := zoneOf_eq_none.mp hz
    exact .inl ⟨rfl, by omega, by simpa using hge⟩
  | some z =>
    have hc : c.toNat = z.toNat := zoneOf_eq_some.mp hz
    have hlt : z.toNat < 4 := z.isLt
    exact .inr ⟨z, rfl, hc, by omega, by rw [hc, Vector.getElem?_eq_getElem hlt]; rfl⟩

/-- The effect of a message with a slot index and a slot value: the zone's slot is written where `cond` holds (R154 to R156). -/
def zoneWrite (c : Chan) (cond : Zone → Bool) (note v : Data7) (on : Bool) (s : State) : State :=
  match zoneOf c with
  | none => s
  | some z => if cond z then memWrite (slotIndex z note) (slotValue v on) s else s

theorem dispatch_eq_zoneWrite {ty : BitVec 4} {c : Chan} {cond : Zone → Bool} {note v : Data7} {on : Bool} {s : State} (hty : ty ≠ 0xF#4)
    (h : ∀ z, mapZone z ⟨ty ++ c, some note, some v⟩ s = if cond z then memWrite (slotIndex z note) (slotValue v on) s else s) :
    dispatch ⟨ty ++ c, some note, some v⟩ s = zoneWrite c cond note v on s := by
  simp only [dispatch, zoneWrite, statusType_append, statusChan_append, if_neg hty]
  cases zoneOf c with
  | none => rfl
  | some z => exact h z

theorem zoneWrite_read (c : Chan) (cond : Zone → Bool) (note v : Data7) (on : Bool) (s : State) (a : Nat) :
    (zoneWrite c cond note v on s).fb.read a =
      if (zoneOf c).any cond = true ∧ a = 128 * c.toNat + note.toNat then BitVec.ofNat 8 (2 * v.toNat + on.toNat) else s.fb.read a := by
  have hvalue : slotValue v on = BitVec.ofNat 8 (2 * v.toNat + on.toNat) := by
    rw [← slotValue_toNat, BitVec.ofNat_toNat, BitVec.setWidth_eq]
  unfold zoneWrite
  cases hz : zoneOf c with
  | none => simp
  | some z =>
    have hc : c.toNat = z.toNat := zoneOf_eq_some.mp hz
    by_cases hcond : cond z = true
    · simp [hcond, Memory.read_write, slotIndex_toNat, hvalue, hc]
    · simp [hcond]

theorem zoneWrite_tables (c : Chan) (cond : Zone → Bool) (note v : Data7) (on : Bool) (s : State) :
    SameTables s (zoneWrite c cond note v on s) := by
  unfold zoneWrite
  split
  · simp [SameTables]
  · split_ifs <;> simp [SameTables]

/-- A message of length 3 that writes a slot: the slot, the frame, and the parser's registers, which are those of the message. -/
theorem slotMessage {i : Instr} {b : Byte} {c : Chan} {cond : Zone → Bool} {note v : Data7} {on : Bool} {s : State}
    (hi : exec i s = channelVoice b s) (hlen : msgLen b = some 3)
    (hd : dispatch ⟨b, some note, some v⟩ s = zoneWrite c cond note v on s) :
    ∃ t : State, execSeq [i, .dataContinue note, .dataContinue v] s = .next t ∧
      (∀ a, t.fb.read a =
        if (zoneOf c).any cond = true ∧ a = 128 * c.toNat + note.toNat then BitVec.ofNat 8 (2 * v.toNat + on.toNat) else s.fb.read a) ∧
      t.rs = b ∧ t.buf = #v[b, dataByte note, dataByte v] ∧ t.cnt = 0#2 ∧ t.sysex = s.sysex ∧
      SameTables s t ∧ SameRx s t ∧ SameTx s t ∧ SameEnv s t ∧ t.resetEvents = s.resetEvents := by
  have hframe := dispatch_frame ⟨b, some note, some v⟩ s
  rw [hd] at hframe
  obtain ⟨hrx, ⟨-, -, -, hsysex⟩, htx, henv, hevents⟩ := hframe
  rw [execSeq_message_three (hi.trans (channelVoice_eq (.inr hlen) s)) hlen, hd]
  exact ⟨_, rfl, zoneWrite_read c cond note v on s, rfl, rfl, rfl, hsysex, zoneWrite_tables c cond note v on s, hrx, htx, henv, hevents⟩

/-- Settles O25: the zone's mode decides, and a channel above 3 has no mode. -/
theorem noteOffMessage : Obligations.NoteOffMessage := by
  intro s c note vel
  have hd : dispatch ⟨0x8#4 ++ c, some note, some vel⟩ s = zoneWrite c (fun z => modeTakesNoteOff (zoneMode z s)) note vel false s :=
    dispatch_eq_zoneWrite (by decide) fun z => by simp [mapZone, mapNoteOff]
  have hmode : (zoneOf c).any (fun z => modeTakesNoteOff (zoneMode z s)) = true ↔ s.mode[c.toNat]? = some 0x01#8 := by
    obtain ⟨hz, -, hm⟩ | ⟨z, hz, -, -, hm⟩ := zone_cases c s <;> simp [hz, hm, modeTakesNoteOff]
  have h := slotMessage (i := .noteOff c) rfl (msgLen_append_three (by decide) c) hd
  simpa only [hmode, Bool.toNat_false, Nat.add_zero] using h

/-- Settles O26: every zone takes the message, whatever its mode. -/
theorem noteOnMessage : Obligations.NoteOnMessage := by
  intro s c note vel
  have hd : dispatch ⟨0x9#4 ++ c, some note, some vel⟩ s = zoneWrite c (fun _ => true) note vel true s :=
    dispatch_eq_zoneWrite (by decide) fun z => by simp [mapZone, mapNoteOn]
  have hzone : (zoneOf c).any (fun _ => true) = true ↔ c.toNat < 4 := by
    obtain ⟨hz, hlt, -⟩ | ⟨z, hz, -, hlt, -⟩ := zone_cases c s <;> simp [hz, hlt]
  have h := slotMessage (i := .noteOn c) rfl (msgLen_append_three (by decide) c) hd
  simpa only [hzone, Bool.toNat_true] using h

/-- Settles O27: the zone's mode decides, and a channel above 3 has no mode. -/
theorem polyPressureMessage : Obligations.PolyPressureMessage := by
  intro s c note p
  have hd : dispatch ⟨0xA#4 ++ c, some note, some p⟩ s = zoneWrite c (fun z => modeTakesPressure (zoneMode z s)) note p false s :=
    dispatch_eq_zoneWrite (by decide) fun z => by simp [mapZone, mapPolyPressure]
  have hmode : (zoneOf c).any (fun z => modeTakesPressure (zoneMode z s)) = true ↔
      s.mode[c.toNat]? = some 0x02#8 ∨ s.mode[c.toNat]? = some 0x03#8 := by
    obtain ⟨hz, -, hm⟩ | ⟨z, hz, -, -, hm⟩ := zone_cases c s <;> simp [hz, hm, modeTakesPressure]
  have h := slotMessage (i := .polyPressure c) rfl (msgLen_append_three (by decide) c) hd
  simpa only [hmode, Bool.toNat_false, Nat.add_zero] using h

/-! #### The message that writes a mode -/

/-- What a PROGRAM_CHANGE leaves in the tables: on a zone's channel the mode of that number, the count and its history are written
(R151, R158). -/
theorem dispatch_programChange (c : Chan) (m : Data7) (s : State) : ∃ t, dispatch ⟨0xC#4 ++ c, some m, none⟩ s = t ∧
    (∀ n : Nat, t.mode[n]? = if c.toNat < 4 ∧ n = c.toNat then some (dataByte m) else s.mode[n]?) ∧
    t.accCode = (if c.toNat < 4 then prio t.mode else s.accCode) ∧
    t.hacc = (if c.toNat < 4 then addValue (accWord t.accCode) s.hacc else s.hacc) ∧ SameSlots s t := by
  obtain ⟨hz, hge, -⟩ | ⟨z, hz, hc, hlt, -⟩ := zone_cases c s
  · exact ⟨s, by simp [dispatch, hz], by simp [hge], by simp [hge], by simp [hge], fun _ => rfl⟩
  · refine ⟨mapProgramChange z m s, by simp [dispatch, hz, mapZone], fun n => ?_, by simp [hlt, mapProgramChange_eq],
      by simp [hlt, mapProgramChange_eq], fun _ => rfl⟩
    have hz4 : z.toNat < 4 := z.isLt
    simp only [mapProgramChange_eq, setAccCode_mode, setZoneMode_mode, Vector.getElem?_set, hc, hz4, true_and, eq_comm (a := n)]

/-- Settles O28: the message is dispatched once its data byte is there, and the dispatch writes the tables only. -/
theorem programChangeMessage : Obligations.ProgramChangeMessage := by
  intro s c m
  have hlen : msgLen (0xC#4 ++ c) = some 2 := msgLen_append_two (by decide) c
  rw [execSeq_message_two (i := .programChange c) (channelVoice_eq (.inl hlen) s) hlen]
  obtain ⟨hrx, ⟨-, -, -, hsysex⟩, htx, henv, hevents⟩ := dispatch_frame ⟨0xC#4 ++ c, some m, none⟩ s
  obtain ⟨_, rfl, hmode, hcode, hhacc, hslots⟩ := dispatch_programChange c m s
  exact ⟨_, rfl, hmode, hcode, hhacc, rfl, rfl, rfl, hsysex, hslots, hrx, htx, henv, hevents⟩

end Sys2Proof.Machine
end

section
/-! ### Who writes what, and what a reset and a SysEx sequence leave

A step that changes a slot, a mode, the count or the running status is the Parser's; the cases of its instruction name the byte that was
held and the message it completed (spec/10_state.md sections 3 and 4; spec/20_memory.md R61). -/

namespace Sys2Proof.Machine

/-! #### The held byte -/

/-- A held byte that continues a message is a data byte outside SysEx with a message in progress (R133). -/
theorem heldInstr_dataContinue {s : State} {v : Data7} (h : heldInstr s = .dataContinue v) :
    s.rxHold = dataByte v ∧ s.sysex = false ∧ s.cnt ≠ 0#2 := by
  obtain ⟨-, happ, hbyte⟩ := decodeByte_readsAs (decodeCtx s) s.rxHold
  rw [← heldInstr, h] at happ hbyte
  have hctx : s.sysex = false ∧ s.cnt ≠ 0#2 := by simpa [Instr.appliesIn, decodeCtx] using happ
  exact ⟨hbyte.symm, hctx⟩

/-- A held byte under running status is a data byte outside SysEx with no message in progress (R131). -/
theorem heldInstr_dataRunningStatus {s : State} {v : Data7} (h : heldInstr s = .dataRunningStatus v) :
    s.rxHold = dataByte v ∧ s.sysex = false ∧ s.cnt = 0#2 := by
  obtain ⟨-, happ, hbyte⟩ := decodeByte_readsAs (decodeCtx s) s.rxHold
  rw [← heldInstr, h] at happ hbyte
  have hctx : (s.sysex = false ∧ s.cnt = 0#2) ∧ s.rs ≠ 0#8 := by simpa [Instr.appliesIn, decodeCtx] using happ
  exact ⟨hbyte.symm, hctx.1⟩

/-- A step either runs the held instruction, or leaves the running status, the modes, the count and the frame buffer as they were. -/
theorem step_held_or_keeps {s t : State} (h : step s = .next t) :
    (nextMove s = .parser ∧ s.rxFull = true ∧ exec (heldInstr s) (consumeByte (takeMove s)) = .next t) ∨
      (t.rs = s.rs ∧ t.mode = s.mode ∧ t.accCode = s.accCode ∧ t.fb = s.fb) := by
  obtain ⟨-, ⟨b, -, rfl⟩ | hparser | ⟨-, -, rfl⟩ | ⟨-, htx⟩⟩ := step_cases h
  · exact .inr ⟨rfl, rfl, rfl, rfl⟩
  · exact .inl hparser
  · exact .inr ⟨rfl, rfl, rfl, rfl⟩
  · rw [txStep_onlyTx htx]
    exact .inr ⟨rfl, rfl, rfl, rfl⟩

/-- Settles O37: of all instructions only the System Reset and the Channel Voice status bytes write `rs`. -/
theorem onlyChannelVoiceWritesRunningStatus : Obligations.OnlyChannelVoiceWritesRunningStatus := by
  intro s t h hne
  obtain ⟨hm, hfull, hexec⟩ | ⟨hrs, -⟩ := step_held_or_keeps h
  · refine ⟨hm, hfull, ?_⟩
    obtain ⟨-, happ, hbyte⟩ := decodeByte_readsAs (decodeCtx s) s.rxHold
    obtain hkept | ⟨hreset, hrs⟩ | ⟨hcv, hrs, hout⟩ := exec_rs hexec
    · exact absurd hkept hne
    · exact .inl ⟨(heldInstr_eq_systemReset s).mp hreset, hrs⟩
    · rw [heldInstr, hbyte] at hcv hrs
      have hsysex : s.sysex = false := by
        have := (hout (decodeCtx s)).symm.trans happ
        simpa [decodeCtx] using this
      exact .inr ⟨hcv, hsysex, hrs⟩
  · exact absurd hrs hne

/-! #### The slots -/

/-- A completion test that changes a slot dispatches a message of three bytes on a zone's channel, and changes the slot it addresses. -/
theorem completeIfFull_read_ne {s : State} {a : Nat} (h : (completeIfFull s).fb.read a ≠ s.fb.read a) :
    s.cnt = 3#2 ∧ msgLen s.buf[0] = some 3 ∧
      ∃ z, zoneOf (statusChan s.buf[0]) = some z ∧ a = (slotIndex z (dataValue s.buf[1])).toNat := by
  obtain heq | ⟨hlen, heq⟩ := completeIfFull_cases_msg s
  · exact absurd (by rw [heq]) h
  have hread : (dispatch (bufferedMsg s.buf s.cnt.toNat) s).fb.read a ≠ s.fb.read a := by rwa [heq] at h
  obtain hd | ⟨z, note, v, b, hz, h1, h2, hd⟩ | ⟨z, prog, -, -, -, hd⟩ := dispatch_cases_msg (bufferedMsg s.buf s.cnt.toNat) s <;>
    rw [hd] at hread
  · exact absurd rfl hread
  · have h3 : s.cnt.toNat = 3 := by
      by_contra hne
      simp [bufferedMsg, hne] at h2
    have hnote : dataValue s.buf[1] = note := by simpa [bufferedMsg, h3] using h1
    refine ⟨BitVec.eq_of_toNat_eq h3, by rw [hlen, h3], z, hz, ?_⟩
    by_contra hne
    rw [hnote] at hne
    exact hread (Memory.read_write_other _ _ hne)
  · exact absurd rfl hread

/-- Settles O35: of the instructions that change a slot, DATA_RUNNING_STATUS is out, since its message has two bytes. -/
theorem onlyParserWritesSlots : Obligations.OnlyParserWritesSlots := by
  intro s t a h hne
  obtain ⟨hm, hfull, hexec⟩ | ⟨-, -, -, hfb⟩ := step_held_or_keeps h
  · refine ⟨hm, hfull, ?_⟩
    obtain ht | ⟨v, -, rfl⟩ | ⟨v, hi, rfl⟩ | ⟨hi, -⟩ := exec_next_cases hexec
    · exact absurd (by rw [ht]; rfl) hne
    · obtain ⟨h3, -⟩ := completeIfFull_read_ne (s := bufferRunning v (consumeByte (takeMove s))) hne
      exact absurd h3 (by simp [bufferRunning])
    · obtain ⟨hbyte, hsysex, h0⟩ := heldInstr_dataContinue hi
      obtain ⟨h3, hlen, z, hz, ha⟩ := completeIfFull_read_ne (s := bufferNext v (consumeByte (takeMove s))) hne
      have h2 : s.cnt = 2#2 := by
        have h3' : s.cnt + 1#2 = 3#2 := h3
        bv_omega
      have hbuf : (bufferNext v (consumeByte (takeMove s))).buf[0] = s.buf[0] ∧
          (bufferNext v (consumeByte (takeMove s))).buf[1] = s.buf[1] := by simp [bufferNext, h2]
      rw [hbuf.1] at hlen hz
      rw [hbuf.2] at ha
      exact .inr ⟨hbyte ▸ isData_dataByte v, hsysex, h2, hlen, z, hz, ha⟩
    · exact .inl ((heldInstr_eq_systemReset s).mp hi)
  · exact absurd (by rw [hfb]) hne

/-! #### The Zone Mode Table and the count -/

/-- A completion test that changes a mode or the count dispatches a PROGRAM_CHANGE of two bytes on a zone's channel. -/
theorem completeIfFull_tables_ne {s : State} (h : (completeIfFull s).mode ≠ s.mode ∨ (completeIfFull s).accCode ≠ s.accCode) :
    s.cnt = 2#2 ∧ statusType s.buf[0] = 0xC#4 ∧
      ∃ z, zoneOf (statusChan s.buf[0]) = some z ∧
        (completeIfFull s).mode = s.mode.set z.toNat (dataByte (dataValue s.buf[1])) z.isLt ∧
        (completeIfFull s).accCode = prio (completeIfFull s).mode := by
  obtain heq | ⟨hlen, heq⟩ := completeIfFull_cases_msg s
  · rw [heq] at h; simp at h
  obtain hd | ⟨z, note, v, b, -, -, -, hd⟩ | ⟨z, prog, hty, hz, h1, hd⟩ :=
      dispatch_cases_msg (bufferedMsg s.buf s.cnt.toNat) s <;>
    rw [hd] at heq
  · rw [heq] at h; simp at h
  · rw [heq] at h; simp at h
  · have h2 : s.cnt.toNat = 2 := by
      have hty' : statusType s.buf[0] = 0xC#4 := hty
      have htwo : msgLen s.buf[0] = some 2 := by simp [msgLen, hty']
      exact (Option.some.inj (htwo.symm.trans hlen)).symm
    have hprog : dataValue s.buf[1] = prog := by simpa [bufferedMsg, h2] using h1
    refine ⟨BitVec.eq_of_toNat_eq h2, hty, z, hz, ?_, ?_⟩ <;> rw [heq]
    · rw [hprog]; rfl
    · rfl

/-- Settles O36: the message in the buffer is the running status with its one data byte, or the explicit message. -/
theorem onlyProgramChangeWritesTables : Obligations.OnlyProgramChangeWritesTables := by
  intro s t h hne
  obtain ⟨hm, hfull, hexec⟩ | ⟨-, hmode, hcode, -⟩ := step_held_or_keeps h
  · refine ⟨hm, hfull, ?_⟩
    obtain ht | ⟨v, hi, rfl⟩ | ⟨v, hi, rfl⟩ | ⟨hi, rfl⟩ := exec_next_cases hexec
    · rw [ht] at hne; simp at hne
    · obtain ⟨hbyte, hsysex, h0⟩ := heldInstr_dataRunningStatus hi
      obtain ⟨-, hty, z, hz, hmode, hcode⟩ := completeIfFull_tables_ne (s := bufferRunning v (consumeByte (takeMove s))) hne
      have hbuf : (bufferRunning v (consumeByte (takeMove s))).buf[0] = s.rs ∧
          (bufferRunning v (consumeByte (takeMove s))).buf[1] = dataByte v := by simp [bufferRunning]
      rw [hbuf.1] at hty hz
      rw [hbuf.2, dataValue_dataByte, ← hbyte] at hmode
      refine .inr ⟨hbyte ▸ isData_dataByte v, hsysex, .inl h0, ?_⟩
      rw [if_pos h0]
      exact ⟨hty, z, hz, hmode, hcode⟩
    · obtain ⟨hbyte, hsysex, h0⟩ := heldInstr_dataContinue hi
      obtain ⟨h2, hty, z, hz, hmode, hcode⟩ := completeIfFull_tables_ne (s := bufferNext v (consumeByte (takeMove s))) hne
      have h1 : s.cnt = 1#2 := by
        have h2' : s.cnt + 1#2 = 2#2 := h2
        bv_omega
      have hbuf : (bufferNext v (consumeByte (takeMove s))).buf[0] = s.buf[0] ∧
          (bufferNext v (consumeByte (takeMove s))).buf[1] = dataByte v := by simp [bufferNext, h1]
      rw [hbuf.1] at hty hz
      rw [hbuf.2, dataValue_dataByte, ← hbyte] at hmode
      refine .inr ⟨hbyte ▸ isData_dataByte v, hsysex, .inr h1, ?_⟩
      rw [if_neg h0]
      exact ⟨hty, z, hz, hmode, hcode⟩
    · exact .inl ⟨(heldInstr_eq_systemReset s).mp hi, rfl, rfl⟩
  · exact absurd hne (by simp [hmode, hcode])

end Sys2Proof.Machine
end

section
/-! ### The System Reset, SysEx sequences and discarded bytes -/

namespace Sys2Proof.Machine

/-! #### The System Reset -/

/-- The state a System Reset leaves (R111). -/
def afterReset (s : State) : State := signalReset (clearSlots (resetTables (resetParser s)))

/-- A second System Reset finds every value it writes already there. -/
theorem afterReset_afterReset (s : State) :
    afterReset (afterReset s) = { afterReset s with resetEvents := (afterReset s).resetEvents + 1 } := by
  have hhacc : addValue (accWord 0#3) (addValue (accWord 0#3) s.hacc) = addValue (accWord 0#3) s.hacc :=
    addValue_of_mem (mem_addValue.mpr (.inl rfl))
  simp only [afterReset, signalReset, clearSlots, resetTables, resetParser, setAccCode, hhacc]

/-- Settles O11: every register the reset writes has its power-on value after it, and the slots read as 0x00 at the next start bit. -/
theorem systemResetEffect : Obligations.SystemResetEffect := by
  refine ⟨fun ctx => rfl, fun s => ⟨afterReset s, rfl, rfl, rfl, rfl, rfl, rfl, rfl, rfl, fun _ => rfl, rfl, ?_, ?_, ?_, ?_, ?_⟩⟩
  · simp [SameTx, afterReset]
  · simp [SameRx, afterReset]
  · simp [SameEnv, afterReset]
  · exact congrArg Host.Outcome.next (afterReset_afterReset s)
  · intro hp h0 h1 h512
    obtain ⟨u, hu, hsh, -⟩ := txStep_startBit_latches hp h0 (symbolByte_slot h1 h512)
    exact ⟨u, hu, hsh⟩

/-- Settles O12: with no tearing the cycle start reads the count that the reset has written. -/
theorem resetThenTransmitterIdles : Obligations.ResetThenTransmitterIdles := by
  intro s hp htear
  have hcount : readCount (afterReset s) = 0#10 := readCount_whole (s := afterReset s) htear
  refine ⟨afterReset s, _, rfl, txStep_cstart_idle hp hcount, hcount, ?_, rfl, hp⟩
  show groupsOn (readCount (afterReset s)) = _
  rw [hcount]
  rfl

/-! #### SysEx sequences -/

/-- Settles O15: 0xF0 has its own row outside SysEx. -/
theorem sysexStartEntersSkip : Obligations.SysexStartEntersSkip :=
  ⟨fun _ hctx => decodeByte_status hctx (by decide) (by decide), fun _ => ⟨rfl, rfl⟩⟩

theorem feed_singleton {b : Byte} {s t : State} (h : feedByte b s = .next t) : feed [b] s = .next t := feed_cons h []

theorem feed_append {bs : List Byte} {s t : State} (h : feed bs s = .next t) (cs : List Byte) : feed (bs ++ cs) s = feed cs t := by
  induction bs generalizing s with
  | nil => cases h; rfl
  | cons b bs ih =>
    obtain ⟨u, hu, -⟩ := exec_rows (decodeByte (decodeCtx s) b) { s with rxHold := b, rxFull := false }
    have hfeed : feedByte b s = .next u := (feedByte_eq b s).trans hu
    rw [feed_cons hfeed] at h
    rw [List.cons_append, feed_cons hfeed, ih h]

/-- 0xF0 and the content after it: SysEx is open, the message in progress is gone, the last byte is in the receive register. -/
theorem feed_sysexOpen {s : State} {bs : List Byte} (hs : s.sysex = false) (h : ∀ b ∈ bs, b ≠ 0xF7#8 ∧ b ≠ 0xFF#8) :
    ∃ x, feed (0xF0#8 :: bs) s = .next { s with sysex := true, cnt := 0#2, rxHold := x, rxFull := false } := by
  have hopen : feedByte 0xF0#8 s = .next { s with sysex := true, cnt := 0#2, rxHold := 0xF0#8, rxFull := false } := by
    rw [feedByte_eq, sysexStartEntersSkip.1 _ hs]
    rfl
  rw [feed_cons hopen]
  cases bs with
  | nil => exact ⟨_, rfl⟩
  | cons b bs => exact ⟨_, feed_inSysex rfl h⟩

/-- Settles O16: 0xF0 opens SysEx, its content shows in the receive register only, and 0xF7 closes it. -/
theorem sysexTransparency : Obligations.SysexTransparency := by
  intro s bs hs h
  obtain ⟨x, hopen⟩ := feed_sysexOpen hs h
  rw [← List.cons_append, feed_append hopen]
  refine feed_singleton ?_
  rw [feedByte_eq, decodeByte_eox rfl]
  simp [exec, execEox, setSysex, hs]

/-! #### Discarded bytes -/

/-- Settles O20: 0xF7 has its own row outside SysEx. -/
theorem strayEoxClearsCount : Obligations.StrayEoxClearsCount :=
  ⟨fun _ hctx => decodeByte_status hctx (by decide) (by decide), fun _ => rfl⟩

/-- Settles O21: with no message and no running status the data byte has the row that discards it. -/
theorem dataWithoutStatusDiscarded : Obligations.DataWithoutStatusDiscarded :=
  ⟨fun v => decodeByte_dataByte rfl v, fun _ _ => rfl⟩

end Sys2Proof.Machine
end

section
/-! ### What an instruction reads

Two states that agree on the parser's registers, the tables and every slot are told apart by no operation of the Parser
(spec/20_memory.md R61). -/

namespace Sys2Proof.Machine

/-- The two states agree on all that the Parser reads and writes. -/
abbrev SameParserView (s t : State) : Prop := SameParser s t ∧ SameTables s t ∧ SameSlots s t

theorem SameParserView.memWrite {s t : State} (h : SameParserView s t) (i : SlotIx) (v : Byte) :
    SameParserView (memWrite i v s) (memWrite i v t) := by
  obtain ⟨hparser, htables, hslots⟩ := h
  refine ⟨hparser, htables, fun a => ?_⟩
  simp only [memWrite_fb, Memory.read_write, hslots a]

theorem SameParserView.mapProgramChange {s t : State} (h : SameParserView s t) (z : Zone) (prog : Data7) :
    SameParserView (mapProgramChange z prog s) (mapProgramChange z prog t) := by
  obtain ⟨hparser, ⟨hmode, hcode, hhacc⟩, hslots⟩ := h
  refine ⟨hparser, ?_, hslots⟩
  simp [SameTables, mapProgramChange_eq, hmode, hhacc]

theorem SameParserView.mapZone {s t : State} (h : SameParserView s t) (z : Zone) (m : Msg) :
    SameParserView (mapZone z m s) (mapZone z m t) := by
  have hmode : zoneMode z t = zoneMode z s := by
    obtain ⟨-, ⟨hmode, -⟩, -⟩ := h
    simp only [zoneMode, hmode]
  unfold Machine.mapZone
  split
  case h_1 =>
    simp only [mapNoteOff, hmode]
    split_ifs
    · exact h.memWrite _ _
    · exact h
  case h_2 => exact h.memWrite _ _
  case h_3 =>
    simp only [mapPolyPressure, hmode]
    split_ifs
    · exact h.memWrite _ _
    · exact h
  case h_5 => exact h.mapProgramChange _ _
  all_goals exact h

theorem SameParserView.dispatch {s t : State} (h : SameParserView s t) (m : Msg) : SameParserView (dispatch m s) (dispatch m t) := by
  unfold Machine.dispatch
  split_ifs
  · exact h
  · cases zoneOf (statusChan m.status) with
    | none => exact h
    | some z => exact h.mapZone z m

theorem SameParserView.setCnt {s t : State} (h : SameParserView s t) (n : BitVec 2) : SameParserView (setCnt n s) (setCnt n t) := by
  obtain ⟨⟨hrs, hbuf, -, hsysex⟩, htables, hslots⟩ := h
  exact ⟨⟨hrs, hbuf, rfl, hsysex⟩, htables, hslots⟩

theorem SameParserView.setBuf {s t : State} (h : SameParserView s t) (i : Nat) (b : Byte) :
    SameParserView (setBuf i b s) (setBuf i b t) := by
  obtain ⟨⟨hrs, hbuf, hcnt, hsysex⟩, htables, hslots⟩ := h
  exact ⟨⟨hrs, by simp only [setBuf_buf, hbuf], hcnt, hsysex⟩, htables, hslots⟩

theorem SameParserView.setRs {s t : State} (h : SameParserView s t) (b : Byte) : SameParserView (setRs b s) (setRs b t) := by
  obtain ⟨⟨-, hbuf, hcnt, hsysex⟩, htables, hslots⟩ := h
  exact ⟨⟨rfl, hbuf, hcnt, hsysex⟩, htables, hslots⟩

theorem SameParserView.setSysex {s t : State} (h : SameParserView s t) (f : Bool) : SameParserView (setSysex f s) (setSysex f t) := by
  obtain ⟨⟨hrs, hbuf, hcnt, -⟩, htables, hslots⟩ := h
  exact ⟨⟨hrs, hbuf, hcnt, rfl⟩, htables, hslots⟩

theorem SameParserView.completeIfFull {s t : State} (h : SameParserView s t) :
    SameParserView (completeIfFull s) (completeIfFull t) := by
  obtain ⟨-, hbuf, hcnt, -⟩ := h.1
  simp only [Machine.completeIfFull, complete, hbuf, hcnt]
  split_ifs
  · exact (h.dispatch _).setCnt _
  · exact h

theorem SameParserView.startMessage {s t : State} (h : SameParserView s t) (b : Byte) :
    SameParserView (startMessage b s) (startMessage b t) :=
  ((h.setBuf 0 b).setCnt 1#2).completeIfFull

theorem SameParserView.afterReset {s t : State} (h : SameParserView s t) : SameParserView (afterReset s) (afterReset t) := by
  obtain ⟨-, ⟨-, -, hhacc⟩, -⟩ := h
  exact ⟨⟨rfl, rfl, rfl, rfl⟩, ⟨rfl, rfl, congrArg (addValue (accWord 0#3)) hhacc⟩, fun _ => rfl⟩

/-- Settles O41: every instruction is built from operations that keep the two states alike. -/
theorem parserReadsNoTransmitterState : Obligations.ParserReadsNoTransmitterState := by
  intro i s t hparser htables hslots
  have h : SameParserView s t := ⟨hparser, htables, hslots⟩
  obtain ⟨hrs, -, hcnt, -⟩ := hparser
  suffices hview : ∃ s' t', exec i s = .next s' ∧ exec i t = .next t' ∧ SameParserView s' t' from hview
  cases i
  case dataNoStatus | sysexByte | rtF8 | rtF9 | rtFA | rtFB | rtFC | rtFD | rtFE => exact ⟨s, t, rfl, rfl, h⟩
  case noteOff | noteOn | polyPressure | controlChange | programChange | channelPressure | pitchBend =>
    exact ⟨_, _, rfl, rfl, (h.setRs _).startMessage _⟩
  case scF1 | scF2 | scF3 | scF4 | scF5 | scF6 => exact ⟨_, _, rfl, rfl, h.startMessage _⟩
  case sysexStart => exact ⟨_, _, rfl, rfl, (h.setSysex true).setCnt 0#2⟩
  case eox => exact ⟨_, _, rfl, rfl, h.setSysex false⟩
  case eoxStray => exact ⟨_, _, rfl, rfl, h.setCnt 0#2⟩
  case systemReset => exact ⟨_, _, rfl, rfl, h.afterReset⟩
  case dataRunningStatus v =>
    have hbuffer : SameParserView (bufferRunning v s) (bufferRunning v t) := by
      rw [bufferRunning, bufferRunning, hrs]
      exact ((h.setBuf 0 s.rs).setBuf 1 (dataByte v)).setCnt 2#2
    exact ⟨_, _, rfl, rfl, hbuffer.completeIfFull⟩
  case dataContinue v =>
    have hbuffer : SameParserView (bufferNext v s) (bufferNext v t) := by
      rw [bufferNext, bufferNext, hcnt]
      exact (h.setBuf s.cnt.toNat (dataByte v)).setCnt (s.cnt + 1#2)
    exact ⟨_, _, rfl, rfl, hbuffer.completeIfFull⟩

end Sys2Proof.Machine
end

section
/-! ### Runs of the Transmitter through a whole cycle

The cells that are left of a phase are run by induction; a framed byte, a slot and a cycle are such runs one after another
(spec/30_encoding.md section 4; spec/42_transmitter.md sections 3 to 5). -/

namespace Sys2Proof.Machine

/-- A run of Transmitter steps writes neither the frame buffer nor the configuration. -/
theorem txRun_keeps {n : Nat} {s t : State} {cs : List Bool} (h : txRun n s = some (cs, t)) : t.fb = s.fb ∧ t.cfg = s.cfg := by
  induction n generalizing s cs with
  | zero =>
    obtain ⟨-, rfl⟩ : [] = cs ∧ s = t := by simpa [txRun] using h
    exact ⟨rfl, rfl⟩
  | succ n ih =>
    cases hs : txStep s with
    | next u =>
      rw [txRun_succ hs, Option.map_eq_some_iff] at h
      obtain ⟨⟨ds, v⟩, hv, heq⟩ := h
      obtain ⟨-, rfl⟩ : u.line :: ds = cs ∧ v = t := by simpa using heq
      obtain ⟨hfb, hcfg⟩ := ih hv
      rw [txStep_onlyTx hs] at hfb hcfg
      exact ⟨hfb, hcfg⟩
    | fault f => simp [txRun, hs] at h
    | refused r => simp [txRun, hs] at h

/-- The phase of `s` is over in `u`, and the next one begins (R193). -/
abbrev PhaseDone (s u : State) : Prop :=
  cellsDone u = 0 ∧ u.ph = phaseAfter s ∧ u.sym = symAfter s ∧ u.latched = s.latched

theorem PhaseDone.of_afterCell {s u : State} {b : Byte} (h : PhaseDone (afterCell b s) u)
    (hmore : cellsDone s + 1 ≠ phaseLength s.cfg s.ph) : PhaseDone s u := by
  obtain ⟨h0, hph, hsym, hlatched⟩ := h
  obtain ⟨hph', hsym', -⟩ := afterCell_more (b := b) hmore
  simp only [phaseAfter, symAfter, hph', hsym', afterCell_latched, afterCell_cfg] at hph hsym hlatched
  exact ⟨h0, hph, hsym, hlatched⟩

/-- The `n` cells that are left of a phase outside `CSTART`, past the start bit of a framed byte. -/
theorem txRun_phaseCells {n : Nat} {s : State} (hc : s.ph ≠ .cstart) (hs : s.ph = .frm → cellsDone s ≠ 0)
    (hleft : cellsDone s + n = phaseLength s.cfg s.ph) (hn : n ≠ 0) :
    ∃ u, txRun n s = some ((List.range' (cellsDone s) n).map (phaseLevel s.ph s.sh), u) ∧ PhaseDone s u ∧ u.sh = s.sh := by
  induction n generalizing s with
  | zero => exact absurd rfl hn
  | succ n ih =>
    have hstep : txStep s = .next (afterCell s.sh s) := txStep_of_not_startBit hc fun h => hs h.1 h.2
    rw [txRun_succ hstep, List.range'_succ, List.map_cons, afterCell_line]
    by_cases hlast : n = 0
    · subst hlast
      obtain ⟨hph, hsym, hcells⟩ := afterCell_last (b := s.sh) hleft
      exact ⟨afterCell s.sh s, rfl, ⟨hcells, hph, hsym, afterCell_latched _ _⟩, afterCell_sh _ _⟩
    · obtain ⟨hph, -, hcells⟩ := afterCell_more (b := s.sh) (s := s) (by omega)
      obtain ⟨u, hrun, hdone, hsh⟩ := ih (s := afterCell s.sh s) (hph ▸ hc) (fun _ => by omega)
        (by rw [hcells, hph, afterCell_cfg]; omega) hlast
      rw [hrun, hcells, hph, afterCell_sh]
      exact ⟨u, rfl, hdone.of_afterCell (by omega), hsh.trans (afterCell_sh _ _)⟩

/-! #### A framed byte -/

theorem framedByte_eq_levels (b : Byte) : framedByte b = false :: (List.range' 1 10).map (phaseLevel .frm b) := rfl

/-- The eleven cells of a framed byte, from its start bit (R95). -/
theorem txRun_framedByte {s : State} {b : Byte} (hp : s.ph = .frm) (h0 : cellsDone s = 0) (hb : symbolByte s = .ok b) :
    ∃ u, txRun 11 s = some (framedByte b, u) ∧ PhaseDone s u ∧ u.sh = b := by
  have hstep : txStep s = .next (afterCell b s) := (txStep_startBit hp h0).1 b hb
  have hmore : cellsDone s + 1 ≠ phaseLength s.cfg s.ph := by rw [h0, hp]; simp [phaseLength, Config.frameBits]
  obtain ⟨hph, -, hcells⟩ := afterCell_more (b := b) hmore
  rw [hp] at hph
  rw [h0] at hcells
  have hlevel : (afterCell b s).line = false := by rw [afterCell_line, hp, h0]; rfl
  obtain ⟨u, hrun, hdone, hsh⟩ := txRun_phaseCells (n := 10) (s := afterCell b s) (by simp [hph]) (by simp [hcells])
    (by rw [hcells, hph]; rfl) (by decide)
  refine ⟨u, ?_, hdone.of_afterCell hmore, hsh.trans (afterCell_sh _ _)⟩
  rw [txRun_succ hstep, hrun, hlevel, hcells, hph, afterCell_sh, framedByte_eq_levels]
  rfl

/-- Settles O47: the start bit latches the byte, and the ten cells after it are its bits and the stop bits. -/
theorem framedByteIsElevenCells : Obligations.FramedByteIsElevenCells := by
  intro s b hp h0 hb
  obtain ⟨t, hrun, ⟨ht0, hph, hsym, hlatched⟩, hsh⟩ := txRun_framedByte hp h0 hb
  refine ⟨t, hrun, hsh, ht0, hlatched, fun heq => ?_, fun hne => ?_⟩ <;> rw [hph, hsym]
  · simp [phaseAfter, symAfter, hp, heq]
  · simp [phaseAfter, symAfter, hp, hne]

/-! #### A slot -/

/-- The Transmitter is about to emit slot `j` of a cycle of `n` slots, with its inter-slot mark (R191). -/
abbrev SlotReady (n : BitVec 10) (j : Nat) (s : State) : Prop :=
  s.ph = (if s.cfg.mtbsBits = 0 then .frm else .mtbs) ∧ cellsDone s = 0 ∧ s.sym.toNat = j + 1 ∧ s.latched = n

/-- After a framed byte that is not the cycle's last, the next slot is ready (R190). -/
theorem SlotReady.of_phaseDone {s u : State} (hp : s.ph = .frm) (hcfg : u.cfg = s.cfg) (hlt : s.sym.toNat < s.latched.toNat)
    (hdone : PhaseDone s u) : SlotReady s.latched s.sym.toNat u := by
  obtain ⟨h0, hph, hsym, hlatched⟩ := hdone
  have hne : s.sym ≠ s.latched := fun h => by rw [h] at hlt; exact absurd hlt (lt_irrefl _)
  have hnext : u.sym = s.sym + 1#10 := by simp [hsym, symAfter, hp, hne]
  refine ⟨by simp [hph, phaseAfter, hp, hne, hcfg], h0, ?_, hlatched⟩
  rw [hnext]
  bv_omega

/-- The cells of a mark are all at level 1 (R191, R192). -/
theorem map_range'_mark {p : Phase} (hp : p = .mtbs ∨ p = .mbb) {b : Byte} {k n : Nat} :
    (List.range' k n).map (phaseLevel p b) = highCells n := by
  have hlevel : phaseLevel p b = fun _ => true := by obtain rfl | rfl := hp <;> rfl
  rw [hlevel, List.map_const', List.length_range', highCells]

/-- The inter-slot mark of a slot, if it has one, ends at the slot's start bit (R191). -/
theorem txRun_slotMark {s : State} {n : BitVec 10} {j : Nat} (h : SlotReady n j s) :
    ∃ u, txRun s.cfg.mtbsBits s = some (highCells s.cfg.mtbsBits, u) ∧ u.ph = .frm ∧ cellsDone u = 0 ∧ u.sym.toNat = j + 1 ∧
      u.latched = n := by
  obtain ⟨hph, h0, hsym, hlatched⟩ := h
  by_cases hnone : s.cfg.mtbsBits = 0
  · rw [if_pos hnone] at hph
    rw [hnone]
    exact ⟨s, rfl, hph, h0, hsym, hlatched⟩
  · rw [if_neg hnone] at hph
    obtain ⟨u, hrun, ⟨hu0, huph, husym, hul⟩, -⟩ := txRun_phaseCells (n := s.cfg.mtbsBits) (s := s) (by simp [hph]) (by simp [hph])
      (by rw [h0, hph]; exact Nat.zero_add _) hnone
    rw [h0, hph, map_range'_mark (.inl rfl)] at hrun
    exact ⟨u, hrun, by simp [huph, phaseAfter, hph], hu0, by simpa [husym, symAfter, hph] using hsym, hul.trans hlatched⟩

/-- The cells of slot `j`, which is read when its start bit comes (R187, R191). -/
theorem txRun_slot {s : State} {n : BitVec 10} {j : Nat} (h : SlotReady n j s) (hj : j < 512) :
    ∃ u v, txRun (s.cfg.mtbsBits + Config.frameBits) s = some (slotCells s.cfg (s.fb.read j), v) ∧
      u.ph = .frm ∧ u.sym.toNat = j + 1 ∧ u.latched = n ∧ u.cfg = s.cfg ∧ PhaseDone u v := by
  obtain ⟨u, hmark, hph, h0, hsym, hlatched⟩ := txRun_slotMark h
  obtain ⟨hfb, hcfg⟩ := txRun_keeps hmark
  have hb : symbolByte u = .ok (s.fb.read j) := by
    rw [symbolByte_slot (by omega) (by omega), hsym, hfb]
    rfl
  obtain ⟨v, hframe, hdone, -⟩ := txRun_framedByte hph h0 hb
  exact ⟨u, v, txRun_add hmark hframe, hph, hsym, hlatched, hcfg, hdone⟩

/-- From the first slot on, the first `j` slots are emitted in order, and slot `j` is ready if the cycle has one (R190). -/
theorem txRun_slots {s : State} {n : BitVec 10} (h : SlotReady n 0 s) {j : Nat} (hj : j < n.toNat) (hj512 : j ≤ 512) :
    ∃ u, txRun (j * (s.cfg.mtbsBits + Config.frameBits)) s = some ((firstSlots s.fb j).flatMap (slotCells s.cfg), u) ∧
      SlotReady n j u := by
  induction j with
  | zero => exact ⟨s, by simp [txRun, firstSlots], h⟩
  | succ j ih =>
    obtain ⟨u, hrun, hready⟩ := ih (by omega) (by omega)
    obtain ⟨hfb, hcfg⟩ := txRun_keeps hrun
    obtain ⟨v, w, hslot, hph, hsym, hlatched, hvcfg, hdone⟩ := txRun_slot hready (by omega)
    obtain ⟨-, hwcfg⟩ := txRun_keeps hslot
    have hnext := SlotReady.of_phaseDone hph (hwcfg.trans hvcfg.symm) (by rw [hsym, hlatched]; exact hj) hdone
    rw [hlatched, hsym] at hnext
    rw [hcfg, hfb] at hslot
    refine ⟨w, ?_, hnext⟩
    rw [Nat.succ_mul, txRun_add hrun hslot]
    simp [firstSlots, List.range_succ]

/-! #### A cycle -/

/-- The cells of a cycle before its first slot: the BREAK, the Mark-After-Break and the start code (R94). -/
def headerCells (c : Config) : List Bool := lowCells c.breakBits ++ highCells c.mabBits ++ framedByte Config.startCode

/-- From a cycle start with a nonzero count to the first slot (R185, R186, R98). -/
theorem txRun_header {s : State} (hlegal : s.cfg.legal = true) (hp : s.ph = .cstart) (hcount : readCount s ≠ 0#10) :
    ∃ u, txRun (s.cfg.breakBits + s.cfg.mabBits + Config.frameBits) s = some (headerCells s.cfg, u) ∧ SlotReady (readCount s) 0 u := by
  obtain ⟨t, hrun, hph, hsym, h0, hlatched⟩ := breakThenMarkAfterBreak s hlegal hp hcount
  obtain ⟨-, hcfg⟩ := txRun_keeps hrun
  obtain ⟨u, hframe, hdone, -⟩ := txRun_framedByte hph h0 (symbolByte_start hsym)
  obtain ⟨-, hucfg⟩ := txRun_keeps hframe
  have hready := SlotReady.of_phaseDone hph hucfg (by rw [hsym, hlatched]; bv_omega) hdone
  rw [hlatched, hsym] at hready
  exact ⟨u, txRun_add hrun hframe, hready⟩

/-- From a cycle start to slot `j` of its cycle (R194). -/
theorem txRun_toSlot {s : State} {j : Nat} (hlegal : s.cfg.legal = true) (hp : s.ph = .cstart) (hj : j < (readCount s).toNat)
    (hj512 : j ≤ 512) :
    ∃ u, txRun (s.cfg.breakBits + s.cfg.mabBits + Config.frameBits + j * (s.cfg.mtbsBits + Config.frameBits)) s =
        some (headerCells s.cfg ++ (firstSlots s.fb j).flatMap (slotCells s.cfg), u) ∧
      SlotReady (readCount s) j u ∧ u.fb = s.fb ∧ u.cfg = s.cfg := by
  have hcount : readCount s ≠ 0#10 := fun h => by rw [h] at hj; exact absurd hj (Nat.not_lt_zero j)
  obtain ⟨t, hheader, hfirst⟩ := txRun_header hlegal hp hcount
  obtain ⟨hfb, hcfg⟩ := txRun_keeps hheader
  obtain ⟨u, hslots, hready⟩ := txRun_slots hfirst hj hj512
  rw [hfb, hcfg] at hslots
  have hrun := txRun_add hheader hslots
  exact ⟨u, hrun, hready, txRun_keeps hrun⟩

/-- Settles O51: `slotOffset j` is the cells before slot `j` and the slot's own mark. -/
theorem slotStartBitOffset : Obligations.SlotStartBitOffset := by
  intro s j hlegal hp hj hj512
  obtain ⟨t, hrun, hready, hfb, hcfg⟩ := txRun_toSlot hlegal hp hj (by omega)
  obtain ⟨u, hmark, hph, h0, hsym, -⟩ := txRun_slotMark hready
  obtain ⟨hufb, -⟩ := txRun_keeps hmark
  obtain ⟨v, hv, hsh, hline, -⟩ := txStep_startBit_latches hph h0 (symbolByte_slot (s := u) (by omega) (by omega))
  rw [hcfg] at hmark
  refine ⟨_, u, v, txRun_add hrun hmark, hph, h0, hsym, hv, hline, ?_⟩
  rw [hsh, hsym, hufb, hfb]
  rfl

/-- The Mark-Before-Packet, if there is one, ends at the next cycle start (R192). -/
theorem txRun_endOfCycle {s u : State} (hp : s.ph = .frm) (hlast : s.sym = s.latched) (hcfg : u.cfg = s.cfg) (hdone : PhaseDone s u) :
    ∃ v, txRun s.cfg.mbbBits u = some (highCells s.cfg.mbbBits, v) ∧ v.ph = .cstart ∧ cellsDone v = 0 ∧ v.sym = s.sym ∧
      v.latched = s.latched := by
  obtain ⟨h0, hph, hsym, hlatched⟩ := hdone
  have hsym' : u.sym = s.sym := by simp [hsym, symAfter, hp, hlast]
  by_cases hnone : s.cfg.mbbBits = 0
  · rw [hnone]
    exact ⟨u, rfl, by simp [hph, phaseAfter, hp, hlast, hnone], h0, hsym', hlatched⟩
  · have hmbb : u.ph = .mbb := by simp [hph, phaseAfter, hp, hlast, hnone]
    obtain ⟨v, hrun, ⟨hv0, hvph, hvsym, hvl⟩, -⟩ := txRun_phaseCells (n := s.cfg.mbbBits) (s := u) (by simp [hmbb]) (by simp [hmbb])
      (by rw [h0, hmbb, hcfg]; exact Nat.zero_add _) hnone
    rw [h0, hmbb, map_range'_mark (.inr rfl)] at hrun
    exact ⟨v, hrun, by simp [hvph, phaseAfter, hmbb], hv0, by simp [hvsym, symAfter, hmbb, hsym'], hvl.trans hlatched⟩

/-- Settles O50: the run to the last slot, the last slot, and the Mark-Before-Packet. -/
theorem cycleWaveform : Obligations.CycleWaveform := by
  intro s n hlegal hp hn hpos hle
  obtain ⟨j, rfl⟩ := Nat.exists_eq_succ_of_ne_zero hpos
  obtain ⟨t, hrun, hready, hfb, hcfg⟩ := txRun_toSlot (j := j) hlegal hp (by omega) (by omega)
  obtain ⟨u, v, hslot, hph, hsym, hlatched, hucfg, hdone⟩ := txRun_slot hready (by omega)
  obtain ⟨-, hvcfg⟩ := txRun_keeps hslot
  have hlast : u.sym = u.latched := by rw [hlatched]; exact BitVec.eq_of_toNat_eq (hsym.trans hn)
  obtain ⟨w, hmark, hwph, hw0, hwsym, hwlatched⟩ := txRun_endOfCycle hph hlast (hvcfg.trans hucfg.symm) hdone
  rw [hcfg, hfb] at hslot
  rw [hucfg, hcfg] at hmark
  refine ⟨w, ?_, hwph, hw0, by rw [hwsym, hsym], by rw [hwlatched, ← hlast, hsym]⟩
  have hlength : cycleLength s.cfg (j + 1) = s.cfg.breakBits + s.cfg.mabBits + Config.frameBits + j * (s.cfg.mtbsBits + Config.frameBits) +
      (s.cfg.mtbsBits + Config.frameBits) + s.cfg.mbbBits := by
    rw [cycleLength, Nat.succ_mul]
    omega
  have hcells : cycleCells s.cfg (firstSlots s.fb (j + 1)) = headerCells s.cfg ++ (firstSlots s.fb j).flatMap (slotCells s.cfg) ++
      slotCells s.cfg (s.fb.read j) ++ highCells s.cfg.mbbBits := by
    simp [cycleCells, headerCells, firstSlots, List.range_succ]
  rw [Nat.succ_eq_add_one, hlength, hcells]
  exact txRun_add (txRun_add hrun hslot) hmark

/-! #### The cells left -/

/-- Within the range of its phase the Transmitter has a cell left to emit, but at a cycle start (R194). -/
theorem cellsLeft_eq_zero_iff {s : State} (h : PhaseInv s) : cellsLeft s = 0 ↔ s.ph = .cstart := by
  rw [phaseInv_iff] at h
  cases hp : s.ph with
  | cstart => simp [cellsLeft, hp]
  | brk | mab | frm | mtbs | mbb =>
    simp only [InPhase, Config.frameBits, hp] at h
    simp only [cellsLeft, Config.frameBits, hp, reduceCtorEq, iff_false]
    omega

/-- A cell that is not the last of its phase is one of those that were left (R193). -/
theorem cellsLeft_more {s : State} {b : Byte} (hinv : PhaseInv s) (hc : s.ph ≠ .cstart)
    (hmore : cellsDone s + 1 ≠ phaseLength s.cfg s.ph) :
    cellsLeft (afterCell b s) + 1 = cellsLeft s := by
  rw [phaseInv_iff] at hinv
  obtain ⟨hph, hsym, hcells⟩ := afterCell_more (b := b) hmore
  cases hp : s.ph with
  | cstart => exact absurd hp hc
  | brk | mab | frm | mtbs | mbb =>
    rw [hp] at hph
    simp only [InPhase, hp] at hinv
    simp only [cellsLeft, hph, hp, hsym, hcells, afterCell_cfg, afterCell_latched]
    omega

/-- The last cell of a phase leaves the phases that follow it (R194). -/
theorem cellsLeft_last {s : State} {b : Byte} (hinv : PhaseInv s) (hc : s.ph ≠ .cstart)
    (hlast : cellsDone s + 1 = phaseLength s.cfg s.ph) :
    cellsLeft (afterCell b s) + 1 = cellsLeft s := by
  rw [phaseInv_iff] at hinv
  obtain ⟨hph, hsym, hcells⟩ := afterCell_last (b := b) hlast
  cases hp : s.ph with
  | cstart => exact absurd hp hc
  | brk | mab | mtbs | mbb =>
    simp only [phaseAfter, symAfter, phaseLength, hp] at hph hsym hlast
    simp only [cellsLeft, hph, hp, hsym, hcells, afterCell_cfg, afterCell_latched, BitVec.toNat_ofNat, Nat.zero_mod, Nat.sub_zero]
    omega
  | frm =>
    simp only [phaseAfter, symAfter, phaseLength, InPhase, hp] at hph hsym hlast hinv
    by_cases hend : s.sym = s.latched
    · rw [if_pos hend] at hph hsym
      by_cases hnone : s.cfg.mbbBits = 0
      · rw [if_pos hnone] at hph
        simp only [cellsLeft, hph, hp, hend, hnone, Nat.sub_self, Nat.zero_mul]
        omega
      · rw [if_neg hnone] at hph
        simp only [cellsLeft, hph, hp, hcells, hend, afterCell_cfg, Nat.sub_self, Nat.zero_mul]
        omega
    · rw [if_neg hend] at hph hsym
      obtain ⟨-, -, hle, -⟩ := hinv
      have hslots : s.latched.toNat - s.sym.toNat = s.latched.toNat - (s.sym + 1#10).toNat + 1 := by bv_omega
      by_cases hnone : s.cfg.mtbsBits = 0
      · rw [if_pos hnone] at hph
        simp only [cellsLeft, hph, hp, hcells, hsym, hslots, hnone, afterCell_cfg, afterCell_latched, Nat.succ_mul]
        omega
      · rw [if_neg hnone] at hph
        simp only [cellsLeft, hph, hp, hcells, hsym, hslots, afterCell_cfg, afterCell_latched, Nat.succ_mul]
        omega

/-- Settles O52: every cell is one of those that were left, the first cell of a BREAK one of `C(N)`. -/
theorem cycleLengthCountsDown : Obligations.CycleLengthCountsDown := by
  rintro s t hlegal ⟨-, hphase⟩ h
  refine ⟨fun hc => ?_, fun hp hne => ?_, cellsLeft_eq_zero_iff (txStep_phaseInv hlegal hphase h)⟩
  · obtain ⟨b, -, rfl⟩ := txStep_eq_afterCell hc h
    by_cases hlast : cellsDone s + 1 = phaseLength s.cfg s.ph
    · exact cellsLeft_last hphase hc hlast
    · exact cellsLeft_more hphase hc hlast
  · obtain ⟨t', ht', -, -, -, -, -, -, hbreak⟩ := cycleStartReadsCount s hlegal hp
    cases ht'.symm.trans h
    obtain ⟨-, hph, h1⟩ := hbreak hne
    have hcfg : t.cfg = s.cfg := by rw [txStep_onlyTx h]
    obtain ⟨hmin, -⟩ := legal_iff.mp hlegal
    simp only [cellsLeft, hph, h1, hcfg, cycleLength]
    omega

end Sys2Proof.Machine
end
